-- ==== Sys2Proof/Word.lean ====
section
/-!
DEFINITION. The word types of the sector engine and the drive numbers: the widths of decision D3
(spec/92_eei_decisions.md) and the two drives of rule R279 (spec/60_exceptions.md).
-/

namespace Sys2Proof

/-- One byte of a buffer, a store slot or an encoded operation. -/
abbrev Byte := BitVec 8

/-- A 16-bit word: the CRC register (R25), `track` (R21), `pendingTrackDelta` (R35), `numTrack` (R30). -/
abbrev Word16 := BitVec 16

/-- A 32-bit word: `lba` (R26), `startSector` (R31). -/
abbrev Word32 := BitVec 32

/-- The drive number `d` of rules R20 and R279: "up to two drives". -/
inductive DriveId where
  | drive0
  | drive1
  deriving DecidableEq, Repr, Inhabited

/-- One value per drive: `drive0` picks the first, `drive1` the second. -/
def DriveId.pick {α : Type} (d : DriveId) (a b : α) : α :=
  match d with
  | .drive0 => a
  | .drive1 => b

/-- A sector format the transceiver may or may not encode: `fmt` in `{256, 512}` (R153). -/
inductive Format where
  | half256
  | full512
  deriving DecidableEq, Repr, Inhabited

end Sys2Proof
end

