-- ==== Sys2Proof/Config.lean ====
section
/-!
DEFINITION. What an implementation fixes (the parameters of rule R9 and rule R33) and the free values: what the spec
leaves unspecified, stale, or an oracle answer (spec/93_implementation_defined.md, U1, U5, U6, U7).
-/

namespace Sys2Proof

/-- How the SELECT and MOTOR lines resolve to a drive: "Two supported topologies" (R9, R191, R192). -/
inductive Topology where
  | twoDrive
  | singleDrive
  deriving DecidableEq, Repr, Inhabited

/-- The parameters that are fixed for the life of the block (R9, R33). `NUM_DRIVES` is not a field: R9 derives it from
`TOPOLOGY`. The record stands in `State` and no step changes it (assumption log 1). -/
structure Params where
  /-- `TOPOLOGY` -/
  topology : Topology
  /-- `HALF[0]`: half-sector mode of drive 0 -/
  half0 : Bool
  /-- `HALF[1]`: half-sector mode of drive 1 -/
  half1 : Bool
  /-- `bitLength[0]`: opaque, only handed to the transceiver (R24) -/
  bitLength0 : Nat
  /-- `bitLength[1]` -/
  bitLength1 : Nat
  /-- `CRC_POLY` (D1) -/
  crcPoly : Word16
  /-- `CRC_INIT` (D2) -/
  crcInit : Word16
  /-- `XMIT_AFTER_READ_FAIL` (D10) -/
  xmitAfterReadFail : Bool
  /-- `RESET_CHANGED` (D8) -/
  resetChanged : Bool
  /-- The pairs `(fmt, bitLength)` for which `XCV.supports` is false (R153): "a Boolean that depends on its two
  arguments alone". -/
  unsupported : List (Format × Nat)
  deriving DecidableEq, Repr

/-- The values the spec gives the parameters (R9: `CRC_POLY` D1, `CRC_INIT` D2, `XMIT_AFTER_READ_FAIL` D10,
`RESET_CHANGED` D8) and, for those it leaves OPEN, the values the test vectors use (spec/95_test_vectors.md section 0).
DESIGN CHOICE (assumption log 1): a claim quantifies over the whole record. -/
def Params.standard : Params where
  topology := .twoDrive
  half0 := false
  half1 := false
  bitLength0 := 0
  bitLength1 := 0
  crcPoly := 0x1021#16
  crcInit := 0xCDB4#16
  xmitAfterReadFail := false
  resetChanged := true
  unsupported := []

/-- `HALF[d]` -/
def Params.half (p : Params) (d : DriveId) : Bool := d.pick p.half0 p.half1

/-- `bitLength[d]` -/
def Params.bitLength (p : Params) (d : DriveId) : Nat := d.pick p.bitLength0 p.bitLength1

/-- `d < NUM_DRIVES`: 2 drives in the two-drive topology, drive 0 alone in the single-drive one (R9). -/
def Params.hasDrive (p : Params) (d : DriveId) : Bool :=
  match d, p.topology with
  | .drive0, _ => true
  | .drive1, .twoDrive => true
  | .drive1, .singleDrive => false

/-- `XCV.supports(fmt, bitLength)` (R153). -/
def Params.supports (p : Params) (fmt : Format) (bitLength : Nat) : Bool :=
  decide ((fmt, bitLength) ∉ p.unsupported)

namespace Config

/-! Free values. Nothing constrains them; the first argument is the number of the draw (`State.draws`), the second an
index inside one draw. Assumption log 2. -/

/-- Byte `k` of draw `n`: a buffer byte nothing has written (U1), a byte of an oracle answer that the environment did not
give (U5, U6, U7), a byte that an operand names outside `BUF` (assumption log 28). -/
opaque freeByte : Nat → Nat → Byte

/-- A 16-bit value of draw `n`: `crc` and `numTrack` after `SYS.RESET` (U1), a `track` the spec states no value for. -/
opaque freeWord16 : Nat → Nat → Word16

/-- A 32-bit value of draw `n`: `lba` and `startSector` after `SYS.RESET` (U1), an `lba` that fits no 32-bit word. -/
opaque freeWord32 : Nat → Nat → Word32

/-- The status of draw `n` where the environment gave no oracle answer (R66, R155, U15). -/
opaque freeStatus : Nat → Nat

/-- The drive that draw `n` makes the running one for an operation that names no drive while none is Selected (R143, R154). -/
opaque freeDrive : Nat → DriveId

/-- The image's initial content (R66): what byte `a` of the physical block store holds until the block writes it. -/
opaque pstoreInitial : Nat → Byte

/-- The same of the virtual store (R67). -/
opaque vstoreInitial : Nat → Byte

end Config

end Sys2Proof
end

