-- ==== Sys2Proof/Syntax.lean ====
section
/-!
DEFINITION. The operations of the block, one constructor per row of spec/opcode_table.json: the 42 operations of rule R104
and the three frame formats of rules R91 to R93 (spec/30_encoding.md).
-/

namespace Sys2Proof

/-- The operations (R104) and the frame formats (R91 to R93). A buffer offset or a length is a 16-bit operand, `d` is the
drive, `ro` and `ok` are the loader's answers (R240). -/
inductive Instr where
  -- CRC generator (40_crc.md)
  | crcRst
  | crcBit (b : Byte)
  | crcByte (x : Byte)
  | crcBlk (off len : Word16)
  | crcPut (off : Word16)
  | crcCmp (off : Word16)
  -- framer, checkers, transceiver calls (41_framer.md)
  | frmHdr (base : Word16) (t h sec n : Byte)
  | frmDat512
  | frmDat256A
  | frmDat256B
  | hdrChk (base : Word16)
  | datChk512
  | datChk256 (h : Byte)
  | xcvTx (base len : Word16)
  | xcvRb (base len : Word16)
  | frmSlot512 (d : DriveId)
  | frmSlot256 (d : DriveId)
  -- position state machine (42_position.md)
  | stpEdge (f : Byte)
  | posTake
  | posApply (d : DriveId) (delta : Word16)
  -- select handler and sequencer (43_sync.md)
  | selChg (l : Byte)
  | seqEnter (d : DriveId)
  | seqChk (d : DriveId)
  | seqSide (d : DriveId)
  | seqPos (d : DriveId)
  | seqLba (d : DriveId)
  | seqFetch (d : DriveId)
  | seqXfer (d : DriveId)
  | seqNext (d : DriveId)
  | seqExit (d : DriveId)
  | seqDisp (d : DriveId)
  -- sector read path and write path (44_storage.md)
  | secRd (d : DriveId)
  | secWr (d : DriveId)
  -- descriptor and host operations (45_host.md)
  | imgLoad (d : DriveId) (numTrack : Word16) (numSec : Byte) (startSector : Word32) (ro ok : Bool)
  | imgEject (d : DriveId)
  | imgRdy (d : DriveId)
  | imgRo (d : DriveId)
  | imgChg (d : DriveId)
  | imgClrchg (d : DriveId)
  | drvLoad (d : DriveId) (numTrack : Word16) (numSec : Byte) (startSector : Word32) (ro ok : Bool)
  | drvEject (d : DriveId)
  -- reset (70_reset_and_hazards.md)
  | sysReset
  -- frame formats: byte strings, not operations (30_encoding.md R90 to R93)
  | frameId (t h sec n : Byte) (crc : Word16)
  | frameData512 (payload : List Byte) (crc : Word16)
  | frameData256 (payload : List Byte) (crc : Word16)
  deriving DecidableEq, Repr

/-- The context an operation runs in (R104, R274): main loop (M), handler (H), environment (E). -/
inductive Context where
  | mainLoop
  | handler
  | environment
  deriving DecidableEq, Repr

/-- `STEP.IN` (R107): a valid edge with STEPDIR released. -/
def Instr.stepIn : Instr := .stpEdge 0b10#8

/-- `STEP.OUT` (R107): a valid edge with STEPDIR asserted. -/
def Instr.stepOut : Instr := .stpEdge 0b11#8

end Sys2Proof
end

