-- ==== Sys2Proof/WellFormed.lean ====
section
/-!
DEFINITION. Which terms of `Instr` are operations with legal operands: the operand ranges that the rules of
spec/30_encoding.md, spec/40_crc.md and spec/41_framer.md state.
-/

namespace Sys2Proof

/-- `BUF_LEN`: bytes in the Sector Data Buffer (R9, R40). -/
def bufLen : Nat := 536

/-- `off .. off+len-1` lies inside `BUF[0..535]` (R61). -/
def inBuf (off len : Nat) : Bool := decide (off + len ≤ bufLen)

/-- The length codes that exist: 1 and 2 (R98). -/
def legalLengthCode (n : Byte) : Bool := n == 1#8 || n == 2#8

/-- The operand ranges. The buffer operations name bytes inside `BUF` (R61, R123), `h` is 0 or 1 (R146), a frame's
payload has its format's length (R92, R93) and an ID field's length code is 1 or 2 (R98, R103). -/
def Instr.wellFormed : Instr → Bool
  | .crcBlk off len => inBuf off.toNat len.toNat
  | .crcPut off => inBuf off.toNat 2
  | .crcCmp off => inBuf off.toNat 2
  | .frmHdr base _ _ _ _ => inBuf base.toNat 8
  | .hdrChk base => inBuf base.toNat 7
  | .datChk256 h => h == 0#8 || h == 1#8
  | .xcvTx base len => inBuf base.toNat len.toNat
  | .xcvRb base len => inBuf base.toNat len.toNat
  | .frameId _ _ _ n _ => legalLengthCode n
  | .frameData512 payload _ => decide (payload.length = 512)
  | .frameData256 payload _ => decide (payload.length = 256)
  | .crcRst | .crcBit _ | .crcByte _ | .frmDat512 | .frmDat256A | .frmDat256B | .datChk512
  | .frmSlot512 _ | .frmSlot256 _ | .stpEdge _ | .posTake | .posApply _ _ | .selChg _
  | .seqEnter _ | .seqChk _ | .seqSide _ | .seqPos _ | .seqLba _ | .seqFetch _ | .seqXfer _
  | .seqNext _ | .seqExit _ | .seqDisp _ | .secRd _ | .secWr _
  | .imgLoad _ _ _ _ _ _ | .imgEject _ | .imgRdy _ | .imgRo _ | .imgChg _ | .imgClrchg _
  | .drvLoad _ _ _ _ _ _ | .drvEject _ | .sysReset => true

end Sys2Proof
end

