-- ==== Sys2Proof/Decode.lean ====
section
/-!
DEFINITION. The encodings of spec/30_encoding.md: one line of an encoded trace (R106) is a selector byte and its operand
bytes (R104), an environment line (R106) or a frame (R91 to R93). The decoder, total on any bytes; the encoder; the bit
and byte-order helpers both use ("a 16-bit operand is 2 bytes and a 32-bit operand 4 bytes, high byte first").
-/

namespace Sys2Proof

/-- `hi8(v) = v[15:8]` (R10). -/
def hi8 (v : Word16) : Byte := v.extractLsb' 8 8

/-- `lo8(v) = v[7:0]` (R10). -/
def lo8 (v : Word16) : Byte := v.extractLsb' 0 8

/-- A 16-bit operand, high byte first (R104): `h ‖ l`. -/
def word16 (h l : Byte) : Word16 := h ++ l

/-- A 32-bit operand, high byte first (R104). -/
def word32 (a b c d : Byte) : Word32 := word16 a b ++ word16 c d

/-- The high half of a 32-bit operand. -/
def hi16 (v : Word32) : Word16 := v.extractLsb' 16 16

/-- The low half of a 32-bit operand. -/
def lo16 (v : Word32) : Word16 := v.extractLsb' 0 16

/-- A Boolean operand byte (`ro`, `ok`, the value of an environment line): 0 is false. DESIGN CHOICE (assumption log 9):
any other value is true; the spec's traces use 0 and 1 only. -/
def boolOf (b : Byte) : Bool := b != 0#8

/-- A Boolean operand as the traces write it: 1 or 0. -/
def boolByte (b : Bool) : Byte := if b then 1#8 else 0#8

/-- The drive number as one byte: 0 or 1 (R104). -/
def driveByte (d : DriveId) : Byte := d.pick 0#8 1#8

/-- "`d` is the drive number (0 or 1) in one byte" (R104): no other value names a drive. -/
def driveOf (b : Byte) : Option DriveId :=
  if b = 0#8 then some .drive0 else if b = 1#8 then some .drive1 else none

/-- Why a line is no operation, no environment line and no frame. -/
inductive Reject where
  /-- a line of no bytes -/
  | emptyLine
  /-- "Every selector value not in rule R104 is reserved" (R105) -/
  | reservedSelector (sel : Nat)
  /-- the selector exists, the number of bytes after it is not the one R104 gives it -/
  | wrongLength (given : Nat)
  /-- a drive number other than 0 and 1 (R104) -/
  | noDrive (number : Nat)
  /-- an ID field or a data field that does not end in the gap byte `0x4E` (R91 to R93, R100) -/
  | badGap
  /-- a data field of neither 516 nor 260 bytes (R102) -/
  | badFieldLength (given : Nat)
  deriving DecidableEq, Repr

/-- What one line of a trace says: an operation of the block or a frame (`Instr`), or one of the four environment lines of
R106, "acts of the environment and not operations of the block" (R105). -/
inductive TraceItem where
  | op (i : Instr)
  /-- `ENV.SIDE v`: the SIDE line becomes asserted or released -/
  | envSide (v : Bool)
  /-- `ENV.WGATE v`: the WRITE_GATE line -/
  | envWgate (v : Bool)
  /-- `ENV.VDISK d, v`: the input `VDISK[d]` -/
  | envVdisk (d : DriveId) (v : Bool)
  /-- `ENV.DIR v`: the STEPDIR level -/
  | envDir (v : Bool)
  deriving DecidableEq, Repr

/-- What the decoder answers. -/
abbrev Decoded := Except Reject TraceItem

/-! The operand shapes of R104's "Operand bytes" column. -/

/-- No operand bytes. -/
def noOperand (i : Instr) : List Byte → Decoded
  | [] => .ok (.op i)
  | ops => .error (.wrongLength ops.length)

/-- One operand byte. -/
def oneByte (f : Byte → Instr) : List Byte → Decoded
  | [b] => .ok (.op (f b))
  | ops => .error (.wrongLength ops.length)

/-- One 16-bit operand. -/
def oneWord (f : Word16 → Instr) : List Byte → Decoded
  | [h, l] => .ok (.op (f (word16 h l)))
  | ops => .error (.wrongLength ops.length)

/-- Two 16-bit operands. -/
def twoWords (f : Word16 → Word16 → Instr) : List Byte → Decoded
  | [h, l, h', l'] => .ok (.op (f (word16 h l) (word16 h' l')))
  | ops => .error (.wrongLength ops.length)

/-- `base`(16) `T` `H` `S` `N`. -/
def headerOperands (f : Word16 → Byte → Byte → Byte → Byte → Instr) : List Byte → Decoded
  | [h, l, t, hd, sec, n] => .ok (.op (f (word16 h l) t hd sec n))
  | ops => .error (.wrongLength ops.length)

/-- A drive number taken from its byte, or the line is rejected. -/
def withDrive (b : Byte) (f : DriveId → TraceItem) : Decoded :=
  match driveOf b with
  | some d => .ok (f d)
  | none => .error (.noDrive b.toNat)

/-- `d`. -/
def oneDrive (f : DriveId → Instr) : List Byte → Decoded
  | [b] => withDrive b fun d => .op (f d)
  | ops => .error (.wrongLength ops.length)

/-- `d` `delta`(16). -/
def driveAndWord (f : DriveId → Word16 → Instr) : List Byte → Decoded
  | [b, h, l] => withDrive b fun d => .op (f d (word16 h l))
  | ops => .error (.wrongLength ops.length)

/-- `d` `numTrack`(16) `numSec` `startSector`(32) `ro` `ok`. -/
def loadOperands (f : DriveId → Word16 → Byte → Word32 → Bool → Bool → Instr) : List Byte → Decoded
  | [b, h, l, numSec, s3, s2, s1, s0, ro, ok] =>
    withDrive b fun d => .op (f d (word16 h l) numSec (word32 s3 s2 s1 s0) (boolOf ro) (boolOf ok))
  | ops => .error (.wrongLength ops.length)

/-- An environment line of one value byte (R106). -/
def envValue (f : Bool → TraceItem) : List Byte → Decoded
  | [v] => .ok (f (boolOf v))
  | ops => .error (.wrongLength ops.length)

/-- `ENV.VDISK d, v` (R106). -/
def envDriveValue : List Byte → Decoded
  | [b, v] => withDrive b fun d => .envVdisk d (boolOf v)
  | ops => .error (.wrongLength ops.length)

/-- The seven bytes after the mark of an ID field (R91). -/
def idField : List Byte → Decoded
  | [t, h, sec, n, ch, cl, gap] =>
    if gap = 0x4E#8 then .ok (.op (.frameId t h sec n (word16 ch cl))) else .error .badGap
  | ops => .error (.wrongLength ops.length)

/-- The payload, CRC and gap of a data field whose payload has `len` bytes (R92, R93). -/
def dataFieldOf (len : Nat) (f : List Byte → Word16 → Instr) (ops : List Byte) : Decoded :=
  match ops.drop len with
  | [ch, cl, gap] => if gap = 0x4E#8 then .ok (.op (f (ops.take len) (word16 ch cl))) else .error .badGap
  | _ => .error (.badFieldLength ops.length)

/-- The bytes after the mark of a data field. "Nothing in the data field says which" of the two lengths it has (R102): the
length of the line does. -/
def dataField (ops : List Byte) : Decoded :=
  if ops.length = 515 then dataFieldOf 512 .frameData512 ops
  else if ops.length = 259 then dataFieldOf 256 .frameData256 ops
  else .error (.badFieldLength ops.length)

/-- The selector table of R104, the environment lines of R106 (`0x70` to `0x73`) and the two address marks of R101; every
other selector is reserved (R105). -/
def decodeSelector (sel : Nat) (ops : List Byte) : Decoded :=
  match sel with
  | 0x00 => noOperand (.crcRst) ops
  | 0x01 => oneByte .crcBit ops
  | 0x02 => oneByte .crcByte ops
  | 0x03 => twoWords .crcBlk ops
  | 0x04 => oneWord .crcPut ops
  | 0x05 => oneWord .crcCmp ops
  | 0x10 => headerOperands .frmHdr ops
  | 0x11 => noOperand (.frmDat512) ops
  | 0x12 => noOperand (.frmDat256A) ops
  | 0x13 => noOperand (.frmDat256B) ops
  | 0x14 => oneWord .hdrChk ops
  | 0x15 => noOperand (.datChk512) ops
  | 0x16 => oneByte .datChk256 ops
  | 0x17 => twoWords .xcvTx ops
  | 0x18 => twoWords .xcvRb ops
  | 0x19 => oneDrive .frmSlot512 ops
  | 0x1A => oneDrive .frmSlot256 ops
  | 0x20 => oneByte .stpEdge ops
  | 0x21 => noOperand (.posTake) ops
  | 0x22 => driveAndWord .posApply ops
  | 0x30 => oneByte .selChg ops
  | 0x31 => oneDrive .seqEnter ops
  | 0x32 => oneDrive .seqChk ops
  | 0x33 => oneDrive .seqSide ops
  | 0x34 => oneDrive .seqPos ops
  | 0x35 => oneDrive .seqLba ops
  | 0x36 => oneDrive .seqFetch ops
  | 0x37 => oneDrive .seqXfer ops
  | 0x38 => oneDrive .seqNext ops
  | 0x39 => oneDrive .seqExit ops
  | 0x3A => oneDrive .seqDisp ops
  | 0x40 => oneDrive .secRd ops
  | 0x41 => oneDrive .secWr ops
  | 0x50 => loadOperands .imgLoad ops
  | 0x51 => oneDrive .imgEject ops
  | 0x52 => oneDrive .imgRdy ops
  | 0x53 => oneDrive .imgRo ops
  | 0x54 => oneDrive .imgChg ops
  | 0x55 => oneDrive .imgClrchg ops
  | 0x56 => loadOperands .drvLoad ops
  | 0x57 => oneDrive .drvEject ops
  | 0x60 => noOperand (.sysReset) ops
  | 0x70 => envValue .envSide ops
  | 0x71 => envValue .envWgate ops
  | 0x72 => envDriveValue ops
  | 0x73 => envValue .envDir ops
  | 0xFE => idField ops
  | 0xFB => dataField ops
  | _ => .error (.reservedSelector sel)

/-- The decoder: one line of a trace. -/
def decodeLine : List Byte → Decoded
  | [] => .error .emptyLine
  | sel :: ops => decodeSelector sel.toNat ops

/-- The context column of R104; a frame is no operation and has none. -/
def Instr.context : Instr → Option Context
  | .crcRst => some .mainLoop
  | .crcBit _ => some .mainLoop
  | .crcByte _ => some .mainLoop
  | .crcBlk _ _ => some .mainLoop
  | .crcPut _ => some .mainLoop
  | .crcCmp _ => some .mainLoop
  | .frmHdr _ _ _ _ _ => some .mainLoop
  | .frmDat512 => some .mainLoop
  | .frmDat256A => some .mainLoop
  | .frmDat256B => some .mainLoop
  | .hdrChk _ => some .mainLoop
  | .datChk512 => some .mainLoop
  | .datChk256 _ => some .mainLoop
  | .xcvTx _ _ => some .mainLoop
  | .xcvRb _ _ => some .mainLoop
  | .frmSlot512 _ => some .mainLoop
  | .frmSlot256 _ => some .mainLoop
  | .stpEdge _ => some .handler
  | .posTake => some .mainLoop
  | .posApply _ _ => some .mainLoop
  | .selChg _ => some .handler
  | .seqEnter _ => some .mainLoop
  | .seqChk _ => some .mainLoop
  | .seqSide _ => some .mainLoop
  | .seqPos _ => some .mainLoop
  | .seqLba _ => some .mainLoop
  | .seqFetch _ => some .mainLoop
  | .seqXfer _ => some .mainLoop
  | .seqNext _ => some .mainLoop
  | .seqExit _ => some .mainLoop
  | .seqDisp _ => some .mainLoop
  | .secRd _ => some .mainLoop
  | .secWr _ => some .mainLoop
  | .imgLoad _ _ _ _ _ _ => some .mainLoop
  | .imgEject _ => some .mainLoop
  | .imgRdy _ => some .mainLoop
  | .imgRo _ => some .mainLoop
  | .imgChg _ => some .mainLoop
  | .imgClrchg _ => some .mainLoop
  | .drvLoad _ _ _ _ _ _ => some .mainLoop
  | .drvEject _ => some .mainLoop
  | .sysReset => some .environment
  | .frameId _ _ _ _ _ => none
  | .frameData512 _ _ => none
  | .frameData256 _ _ => none

/-- The operand bytes of a load (R104). -/
def loadBytes (d : DriveId) (numTrack : Word16) (numSec : Byte) (startSector : Word32) (ro ok : Bool) : List Byte :=
  [driveByte d, hi8 numTrack, lo8 numTrack, numSec, hi8 (hi16 startSector), lo8 (hi16 startSector),
    hi8 (lo16 startSector), lo8 (lo16 startSector), boolByte ro, boolByte ok]

/-- The bytes of an operation (R104) or of a frame (R91 to R93). -/
def encode : Instr → List Byte
  | .crcRst => [0x00#8]
  | .crcBit b => [0x01#8, b]
  | .crcByte b => [0x02#8, b]
  | .crcBlk v w => [0x03#8, hi8 v, lo8 v, hi8 w, lo8 w]
  | .crcPut w => [0x04#8, hi8 w, lo8 w]
  | .crcCmp w => [0x05#8, hi8 w, lo8 w]
  | .frmHdr base t h sec n => [0x10#8, hi8 base, lo8 base, t, h, sec, n]
  | .frmDat512 => [0x11#8]
  | .frmDat256A => [0x12#8]
  | .frmDat256B => [0x13#8]
  | .hdrChk w => [0x14#8, hi8 w, lo8 w]
  | .datChk512 => [0x15#8]
  | .datChk256 b => [0x16#8, b]
  | .xcvTx v w => [0x17#8, hi8 v, lo8 v, hi8 w, lo8 w]
  | .xcvRb v w => [0x18#8, hi8 v, lo8 v, hi8 w, lo8 w]
  | .frmSlot512 d => [0x19#8, driveByte d]
  | .frmSlot256 d => [0x1A#8, driveByte d]
  | .stpEdge b => [0x20#8, b]
  | .posTake => [0x21#8]
  | .posApply d w => [0x22#8, driveByte d, hi8 w, lo8 w]
  | .selChg b => [0x30#8, b]
  | .seqEnter d => [0x31#8, driveByte d]
  | .seqChk d => [0x32#8, driveByte d]
  | .seqSide d => [0x33#8, driveByte d]
  | .seqPos d => [0x34#8, driveByte d]
  | .seqLba d => [0x35#8, driveByte d]
  | .seqFetch d => [0x36#8, driveByte d]
  | .seqXfer d => [0x37#8, driveByte d]
  | .seqNext d => [0x38#8, driveByte d]
  | .seqExit d => [0x39#8, driveByte d]
  | .seqDisp d => [0x3A#8, driveByte d]
  | .secRd d => [0x40#8, driveByte d]
  | .secWr d => [0x41#8, driveByte d]
  | .imgLoad d numTrack numSec startSector ro ok => 0x50#8 :: loadBytes d numTrack numSec startSector ro ok
  | .imgEject d => [0x51#8, driveByte d]
  | .imgRdy d => [0x52#8, driveByte d]
  | .imgRo d => [0x53#8, driveByte d]
  | .imgChg d => [0x54#8, driveByte d]
  | .imgClrchg d => [0x55#8, driveByte d]
  | .drvLoad d numTrack numSec startSector ro ok => 0x56#8 :: loadBytes d numTrack numSec startSector ro ok
  | .drvEject d => [0x57#8, driveByte d]
  | .sysReset => [0x60#8]
  | .frameId t h sec n crc => [0xFE#8, t, h, sec, n, hi8 crc, lo8 crc, 0x4E#8]
  | .frameData512 payload crc => 0xFB#8 :: (payload ++ [hi8 crc, lo8 crc, 0x4E#8])
  | .frameData256 payload crc => 0xFB#8 :: (payload ++ [hi8 crc, lo8 crc, 0x4E#8])

/-- How many bytes the line of an operation has (R104), 0 for a first byte that is no selector of R104. -/
def operationLength (sel : Nat) : Nat :=
  match sel with
  | 0x00 => 1
  | 0x01 => 2
  | 0x02 => 2
  | 0x03 => 5
  | 0x04 => 3
  | 0x05 => 3
  | 0x10 => 7
  | 0x11 => 1
  | 0x12 => 1
  | 0x13 => 1
  | 0x14 => 3
  | 0x15 => 1
  | 0x16 => 2
  | 0x17 => 5
  | 0x18 => 5
  | 0x19 => 2
  | 0x1A => 2
  | 0x20 => 2
  | 0x21 => 1
  | 0x22 => 4
  | 0x30 => 2
  | 0x31 => 2
  | 0x32 => 2
  | 0x33 => 2
  | 0x34 => 2
  | 0x35 => 2
  | 0x36 => 2
  | 0x37 => 2
  | 0x38 => 2
  | 0x39 => 2
  | 0x3A => 2
  | 0x40 => 2
  | 0x41 => 2
  | 0x50 => 11
  | 0x51 => 2
  | 0x52 => 2
  | 0x53 => 2
  | 0x54 => 2
  | 0x55 => 2
  | 0x56 => 11
  | 0x57 => 2
  | 0x60 => 1
  | _ => 0

/-- The line whose bits are `w`, with no bit above `nbits`: the bytes the operation has, and for a frame the bytes `nbits` gives. Byte `k` of the
line is bits `8k+7 .. 8k`, so byte 0, the selector or the mark, is bits 7..0. That numbering of a word of several bytes is the model's choice
(DESIGN CHOICE, assumption log 29): the table gives a selector's bits as 7..0 and the other bytes by their offset, R104 numbers no word, and R91
numbers an ID field as one pattern with byte 0 in bits 63..56. The decoder itself reads bytes in their order. -/
def tableLine (nbits w : Nat) : List Byte :=
  let v := w % 2 ^ nbits
  let n := operationLength (v % 256)
  (List.range (if n = 0 then (nbits + 7) / 8 else n)).map fun k => BitVec.ofNat 8 (v / 256 ^ k)

/-- The operation or frame the decoder reads from an opcode-table word; none where it refuses. -/
def decodeTableWord (nbits w : Nat) : Option Instr :=
  match decodeLine (tableLine nbits w) with
  | .ok (.op i) => some i
  | _ => none

end Sys2Proof
end

