-- ==== Sys2Proof/Machine/State.lean ====
section
/-!
DEFINITION. The state of the block (spec/10_state.md, rules R20 to R46), the collaborators' side of it that a step reads or
writes (stores, input lines, oracle answers, report channel), the reasons a step can stop, and the reset state.
-/

namespace Sys2Proof.Machine

/-! ## Named values -/

/-- The step names of the sequencer position (R27). -/
inductive SeqStep where
  | idle
  | enter
  | chk
  | side
  | pos
  | lba
  | fetch
  | xfer
  | next
  | exit
  deriving DecidableEq, Repr

/-- `run` in `seq[d] = (run, step)` (R27). -/
inductive RunState where
  | deselected
  | selected
  deriving DecidableEq, Repr

/-- `activeDriveSelector` (R36): "which of up to two drives, or none, is currently addressed". -/
inductive Selector where
  | none
  | drive0
  | drive1
  deriving DecidableEq, Repr

/-- The logical value of a line (R13): asserted (driven low) or released (high). -/
inductive Level where
  | asserted
  | released
  deriving DecidableEq, Repr

/-- The two stores outside the block (R60). -/
inductive Space where
  | pstore
  | vstore
  deriving DecidableEq, Repr

/-- The status values (R260, R261). -/
inductive Status where
  | ok
  | loadError
  | storageReadError
  | storageWriteError
  | crcMismatch
  | transceiverReadback
  | unsupportedFormat
  | noMedia
  | hdrBad
  deriving DecidableEq, Repr

/-! ## Memory -/

/-- A byte store as the bytes that have been written, by rising address. A byte that is not listed has no value here: its
reader gives it a free value (R46 and U1 for `BUF`, R66 for the stores; assumption log 3). -/
abbrev Memory := List Host.Cell

/-- The canonical form: addresses strictly rising. An unlisted address reads as no listed byte, so no entry can repeat what
an unlisted address reads as. -/
abbrev Memory.wf (m : Memory) : Prop := m.Pairwise fun x y => x.1 < y.1

/-! ## The parts of the state -/

/-- `img.flags` (R28): three independent 1-bit flags. -/
structure ImageFlags where
  changed : Bool
  ready : Bool
  readonly : Bool
  deriving DecidableEq, Repr

/-- The Disk Image Descriptor (R28, R30 to R32). -/
structure Image where
  flags : ImageFlags
  /-- tracks per side, legal 1..32767 (R30) -/
  numTrack : Word16
  /-- sectors per track, legal 1..255; half-sectors per track in half-sector mode (R30) -/
  numSec : Byte
  /-- base slot of the image in the block store (R31) -/
  startSector : Word32
  /-- `fName != ""`: "a model may keep it as ... the Boolean" (R32) -/
  fName : Bool
  /-- The geometry was written since reset: what rule R211 asks for ("never written since reset"). -/
  geometryLoaded : Bool
  deriving DecidableEq, Repr

/-- The Drive Runtime state of one drive (R21 to R24, R26, R27). -/
structure Drive where
  /-- head position, signed (R21) -/
  track : Word16
  /-- selected head (R22) -/
  side : BitVec 1
  /-- 0-based sector index (R23) -/
  sector : Byte
  /-- logical block address of the slot (R26) -/
  lba : Word32
  /-- opaque timing parameter (R24) -/
  bitLength : Nat
  /-- sequencer position; `run` is computed from it (R27: Deselected if and only if IDLE) -/
  step : SeqStep
  img : Image
  deriving DecidableEq, Repr

/-- The output latches (R39): what the block last commanded (R278). -/
structure Outputs where
  track0 : Level
  writeProtect : Level
  diskChange : Level
  deriving DecidableEq, Repr

/-- The input levels the block samples (R43, R276) and the platform inputs `VDISK[d]` (R9). The select lines and the
STEPDIR level of an edge come with their events (R190, R170). -/
structure Inputs where
  side : Level
  writeGate : Level
  stepDir : Level
  vdisk0 : Bool
  vdisk1 : Bool
  deriving DecidableEq, Repr

/-- One record of the report channel (R263): `(code, d, track, side, sec, lba, st)`. -/
structure Report where
  code : Status
  d : DriveId
  track : Word16
  side : BitVec 1
  sec : Nat
  lba : Nat
  st : Nat
  deriving DecidableEq, Repr

/-- One call of a collaborator (R66, R67, R153 to R156), in the order the block makes them. -/
inductive Call where
  | arm (bitLength : Nat)
  | transmit (bytes : List Byte) (bitLength : Nat)
  | readback (base len : Nat)
  | memRead (space : Space) (address : Nat)
  | memWrite (space : Space) (address : Nat)
  | halfWrite (address : Nat) (half : Nat)
  deriving DecidableEq, Repr

/-- An oracle answer of a collaborator call (R12, R106): its status, and what it leaves in the bytes it may change: the bytes
that were there (`keep`), or the given bytes, a byte not given being free. -/
structure Answer where
  st : Nat
  keep : Bool
  bytes : List Byte
  deriving DecidableEq, Repr

/-- What the last main-loop operation returned to its caller (R12: "every operation returns a status"). The model's own field:
the spec gives operations results and no register to hold them (assumption log 5). -/
inductive Returned where
  | nothing
  | status (c : Status)
  | bool (b : Bool)
  | crc (c : Word16)
  | take (changed : Bool) (delta : Word16)
  | header (t h sec n : Byte)
  | readback (ok : Bool)
  deriving DecidableEq, Repr

/-! ## The state -/

/-- The block, its collaborators' observable side, and the events still to come. -/
structure State where
  /-- the parameters (R9, R33); no step changes them -/
  params : Params
  drv0 : Drive
  drv1 : Drive
  /-- R35 -/
  pendingTrackDelta : Word16
  /-- R29 -/
  trackChangedFlag : Bool
  /-- R36 -/
  selector : Selector
  /-- `BUF` (R40, R61) -/
  buf : Memory
  /-- R25 -/
  crc : Word16
  out : Outputs
  inp : Inputs
  /-- the physical block store, byte `512*idx + k` being byte `k` of slot `idx` (R62) -/
  pstore : Memory
  /-- the virtual store, byte `512*lba + k` being byte `k` of slot `lba` (R63) -/
  vstore : Memory
  /-- the report channel, oldest first (R262) -/
  reports : List Report
  /-- the collaborator calls made, oldest first -/
  calls : List Call
  /-- what the last main-loop operation returned -/
  result : Returned
  /-- the main loop is inside the busy-wait of this operation's readback (R155, R314) -/
  busyWait : Option Instr
  /-- the events still to happen, one encoded line each, the next one first (R106) -/
  trace : List (List Byte)
  /-- the oracle answers the environment gives, the next one first (R106) -/
  answers : List Answer
  /-- number of the next draw of free values -/
  draws : Nat
  /-- the draw that a buffer byte nothing has written comes from (U1) -/
  bufDraw : Nat
  deriving DecidableEq, Repr

/-! ## Why a step stops -/

/-- The faults. -/
inductive Fault where
  /-- `STP.EDGE` past either end of the 16-bit range of `pendingTrackDelta`: "A model treats a step past either end of the range
  as `fault DeltaOverflow`" (R177, U2). Raised by `execStpEdge`. Safe: the model stops where the source leaves the value open. -/
  | deltaOverflow
  deriving DecidableEq, Repr

/-- The refusals. Each is safe: the model stops. -/
inductive Refusal where
  /-- An operation without a meaning. Raised by an arm of `exec`; none is left. -/
  | notModelled (mnemonic : String)
  /-- The next line of the trace is no operation, environment line or frame (R105). Raised by `step`. -/
  | undecodable (why : Reject)
  /-- A frame is a byte string, not an operation: `0xFE` and `0xFB` are selectors that R105 reserves. Raised by the meanings of
  the three frame formats. -/
  | frameIsNoOperation
  /-- A CRC operation given a buffer range outside `BUF[0..535]` (R123, U16). Raised by `CRC.BLK`, `CRC.PUT` and `CRC.CMP`, and by those that
  `FRM.HDR` and `HDR.CHK` run. -/
  | bufferRange
  /-- A drive the topology does not have: `NUM_DRIVES` is 1 (R9). Raised by every operation with a drive operand. -/
  | noSuchDrive
  /-- `startSector + lba` does not fit 32 bits (R76, U3). Raised by the read and write paths. -/
  | addressOutsideModel
  /-- Half-sector mode on the virtual store (R223, U8). Raised by the read and write paths. -/
  | halfSectorOnVirtualStore
  /-- `SEQ.ENTER` with geometry that nothing has written since reset (R211, U1). -/
  | geometryNeverLoaded
  /-- `SEQ.ENTER` with `numTrack` or `numSec` 0 or an odd `numSec` in half-sector mode (R211, U9). -/
  | geometryOutsideModel
  /-- A host operation while a drive is Selected: "a model admits them only when every `seq[d]` is `(Deselected, IDLE)`" (R248). -/
  | hostOpWhileSelected
  /-- `ENV.VDISK d` while drive d is Selected: "changed only while the drive is Deselected" (D24). Raised by `step`. -/
  | vdiskWhileSelected
  deriving DecidableEq, Repr

/-! ## Reset -/

/-- The descriptor at reset (R46): empty. The geometry and `startSector` are unspecified there and 0 here: DESIGN CHOICE
(assumption log 4). -/
def Image.reset (changed : Bool) : Image where
  flags := { changed := changed, ready := false, readonly := false }
  numTrack := 0#16
  numSec := 0#8
  startSector := 0#32
  fName := false
  geometryLoaded := false

/-- A drive at reset (R46, R301). `lba` is unspecified there and 0 here: DESIGN CHOICE (assumption log 4). -/
def Drive.reset (p : Params) (d : DriveId) : Drive where
  track := 0#16
  side := 0#1
  sector := 0#8
  lba := 0#32
  bitLength := p.bitLength d
  step := .idle
  img := Image.reset p.resetChanged

/-- The output latches at reset (R46, R303). -/
def Outputs.reset : Outputs where
  track0 := .asserted
  writeProtect := .released
  diskChange := .released

/-- The block right after reset (R46, R301), with the standard parameters, the input lines released, no virtual image, nothing
written to a store and no event pending. `crc` is unspecified there and 0 here: DESIGN CHOICE (assumption log 4). -/
def State.reset : State where
  params := Params.standard
  drv0 := Drive.reset Params.standard .drive0
  drv1 := Drive.reset Params.standard .drive1
  pendingTrackDelta := 0#16
  trackChangedFlag := false
  selector := .none
  buf := []
  crc := 0#16
  out := Outputs.reset
  inp := { side := .released, writeGate := .released, stepDir := .released, vdisk0 := false, vdisk1 := false }
  pstore := []
  vstore := []
  reports := []
  calls := []
  result := .nothing
  busyWait := none
  trace := []
  answers := []
  draws := 1
  bufDraw := 0

end Sys2Proof.Machine
end

