-- ==== Sys2Proof/Machine/Flags.lean ====
section
/-!
DEFINITION. The flags of the descriptor (R28) and every rule that computes one or reads one: load, eject, acknowledgement,
media presence, the output levels that follow a flag, and the status codes.
-/

namespace Sys2Proof.Machine

/-- The packing of R28: bit 0 CHANGED, bit 1 READY, bit 2 READONLY (D27). No rule depends on it. -/
def ImageFlags.pack (f : ImageFlags) : BitVec 3 :=
  BitVec.ofBool f.readonly ++ BitVec.ofBool f.ready ++ BitVec.ofBool f.changed

/-- The flags a successful load leaves (R240): READONLY is the medium's write protection, READY and CHANGED are set. -/
def ImageFlags.loaded (ro : Bool) : ImageFlags := { changed := true, ready := true, readonly := ro }

/-- The flags an eject leaves (R241). -/
def ImageFlags.ejected : ImageFlags := { changed := true, ready := false, readonly := false }

/-- `clrChanged`: "idempotent, clears CHANGED only" (R245). -/
def ImageFlags.clrChanged (f : ImageFlags) : ImageFlags := { f with changed := false }

/-- `asserted` when the condition holds, else `released` (R13). -/
def Level.assertedWhen (b : Bool) : Level := if b then .asserted else .released

/-- "media present": `READY or VDISK[d]` (R14). -/
def mediaPresent (f : ImageFlags) (vdisk : Bool) : Bool := f.ready || vdisk

/-- The flags after the entry actions (R195): CHANGED is acknowledged when it is pending and a medium is present. -/
def ImageFlags.acknowledged (f : ImageFlags) (vdisk : Bool) : ImageFlags :=
  if f.changed && mediaPresent f vdisk then f.clrChanged else f

/-- DISK_CHANGE after the entry actions (R195): asserted when CHANGED is pending, else not written. -/
def diskChangeAtEntry (f : ImageFlags) (old : Level) : Level := if f.changed then .asserted else old

/-- DISK_CHANGE as step 3 re-evaluates it (R176, D9): released with a medium, asserted without. -/
def diskChangeAtStep (f : ImageFlags) (vdisk : Bool) : Level := .assertedWhen (!mediaPresent f vdisk)

/-- TRACK0 as step 3 writes it (R175): "asserted iff `track == 0`". -/
def track0Level (track : Word16) : Level := .assertedWhen (track == 0#16)

/-- The code numbers of R261. -/
def Status.code : Status → Nat
  | .ok => 0
  | .loadError => 1
  | .storageReadError => 2
  | .storageWriteError => 3
  | .crcMismatch => 4
  | .transceiverReadback => 5
  | .unsupportedFormat => 6
  | .noMedia => 7
  | .hdrBad => 8

end Sys2Proof.Machine
end

