-- ==== Sys2Proof/Machine/Ops.lean ====
section
/-!
DEFINITION. The named operations over the state: memories, drives, outputs, the oracle answers, the report channel and the two
stores. Every meaning is written over these.
-/

namespace Sys2Proof.Machine

/-- What a meaning answers. -/
abbrev Outcome (α : Type) := Host.Outcome α Fault Refusal

/-- Run the second meaning on the state the first one leaves; a fault or a refusal ends the run. -/
def andThen {α β : Type} (x : Outcome α) (f : α → Outcome β) : Outcome β :=
  match x with
  | .next s => f s
  | .fault r => .fault r
  | .refused r => .refused r

/-! ## Memories -/

/-- The byte listed at an address. -/
def Memory.lookup : Memory → Nat → Option Byte
  | [], _ => none
  | (k, b) :: m, a => if k = a then some b else Memory.lookup m a

/-- The cells of a run of bytes from an address on, lowest first. -/
def Memory.cellsFrom : Nat → List Byte → Memory
  | _, [] => []
  | a, b :: bs => (a, b) :: Memory.cellsFrom (a + 1) bs

/-- Write a run of bytes: the cells below it, the run, the cells above it. Keeps the canonical form. -/
def Memory.writeBlock (m : Memory) (base : Nat) (bs : List Byte) : Memory :=
  m.filter (fun c => decide (c.1 < base)) ++ Memory.cellsFrom base bs
    ++ m.filter (fun c => decide (base + bs.length ≤ c.1))

/-! ## The Sector Data Buffer -/

/-- `BUF[a]` (R11). A byte that nothing has written since reset is a free value (R46, U1). -/
def State.bufByte (s : State) (a : Nat) : Byte :=
  match s.buf.lookup a with
  | some b => b
  | none => Config.freeByte s.bufDraw a

/-- `BUF[off .. off+len-1]`, lowest index first (R11). -/
def State.bufRange (s : State) (off len : Nat) : List Byte := (List.range len).map fun k => s.bufByte (off + k)

/-- `BUF[off ..] <- bs`. -/
def State.putBuf (s : State) (off : Nat) (bs : List Byte) : State := { s with buf := s.buf.writeBlock off bs }

/-- `BUF[dst .. dst+len-1] <- BUF[src .. src+len-1]`. -/
def State.copyBuf (s : State) (dst src len : Nat) : State := s.putBuf dst (s.bufRange src len)

/-! ## Operands that name bytes outside `BUF`

`BUF` has the offsets 0 to 535 (R61), an operand has 16 bits (R104). Such a range stops a CRC operation (R123, U16: `onRange`); what the framer, the
header check and the transceiver calls do with a byte that does not exist no rule says. DESIGN CHOICE (assumption log 28): read, it is a free
value; written, it is nothing. -/

/-- `BUF[a]` as an operand names it: outside `BUF` a free value of the next draw. -/
def State.namedByte (s : State) (a : Nat) : Byte := if a < bufLen then s.bufByte a else Config.freeByte s.draws a

/-- The bytes of a range as its operands name it. -/
def State.namedRange (s : State) (off len : Nat) : List Byte := (List.range len).map fun k => s.namedByte (off + k)

/-- The state after such a range was read: bytes outside `BUF` were a draw. -/
def State.tookNamed (s : State) (off len : Nat) : State := { s with draws := if inBuf off len then s.draws else s.draws + 1 }

/-- `BUF[a] <- b` as an operand names it: outside `BUF` nothing is written. -/
def State.putNamed (s : State) (a : Nat) (b : Byte) : State := if a < bufLen then s.putBuf a [b] else s

/-! ## Drives -/

/-- `drv[d]` (R11). -/
def State.drv (s : State) (d : DriveId) : Drive := d.pick s.drv0 s.drv1

/-- The drive that is not drive `d`. -/
def State.other (s : State) (d : DriveId) : Drive := d.pick s.drv1 s.drv0

/-- `drv[d] <- x`. -/
def State.setDrv (s : State) (d : DriveId) (x : Drive) : State :=
  { s with drv0 := d.pick x s.drv0, drv1 := d.pick s.drv1 x }

/-- `seq[d].step <- t` (R11). -/
def State.setStep (s : State) (d : DriveId) (t : SeqStep) : State := s.setDrv d { s.drv d with step := t }

/-- `run` of `seq[d]`: "`run = Deselected` if and only if `step = IDLE`" (R27). -/
def Drive.run (x : Drive) : RunState := if x.step = .idle then .deselected else .selected

/-- `VDISK[d]` (R9). -/
def State.vdisk (s : State) (d : DriveId) : Bool := d.pick s.inp.vdisk0 s.inp.vdisk1

/-- `selected(d)`: `activeDriveSelector == Drive d` (R198). -/
def State.selected (s : State) (d : DriveId) : Bool := s.selector == d.pick .drive0 .drive1

/-- Every `seq[d]` is `(Deselected, IDLE)` (R248). -/
def State.allIdle (s : State) : Bool := s.drv0.step == .idle && s.drv1.step == .idle

/-- The running drive that an operation without a drive operand means (R143, R154): the Selected one. With no drive Selected the rules
name none, and `activeDriveSelector` is read "in `SEQ.DISP`, `SEQ.CHK` and nowhere else" (R193): it is some drive the topology has, a
free value. DESIGN CHOICE (assumption log 8). -/
def State.runningDrive (s : State) : DriveId :=
  if s.drv0.step ≠ .idle then .drive0
  else if s.drv1.step ≠ .idle then .drive1
  else if s.params.hasDrive .drive1 then Config.freeDrive s.draws
  else .drive0

/-- The state after the running drive is known: with no drive Selected it was a draw (assumption log 8). -/
def State.foundRunning (s : State) : State := { s with draws := if s.allIdle then s.draws + 1 else s.draws }

/-! ## Results, reports, calls -/

/-- Return a value to the caller (R12). -/
def State.returning (s : State) (r : Returned) : State := { s with result := r }

/-- Return status `OK` (R261 code 0). -/
def State.returningOk (s : State) : State := s.returning (.status .ok)

/-- `report E(info)` (R12, R262, R263): append one record and continue. `off` is 1 for the second half of a pair, which
concerns `sector + 1` and `lba + 1`, else 0. -/
def State.report (s : State) (code : Status) (d : DriveId) (off st : Nat) : State :=
  { s with reports := s.reports ++ [{ code := code, d := d, track := (s.drv d).track, side := (s.drv d).side,
                                      sec := (s.drv d).sector.toNat + off, lba := (s.drv d).lba.toNat + off, st := st }] }

/-- Note a call of a collaborator. -/
def State.call (s : State) (c : Call) : State := { s with calls := s.calls ++ [c] }

/-! ## Oracle answers (`draw`, R12) -/

/-- The answer the next collaborator call gets: the environment's if it gives one, else free. -/
def State.answer (s : State) : Answer :=
  match s.answers with
  | a :: _ => a
  | [] => { st := Config.freeStatus s.draws, keep := false, bytes := [] }

/-- The state after an answer is taken. -/
def State.tookAnswer (s : State) : State := { s with answers := s.answers.tail, draws := s.draws + 1 }

/-- The bytes that draw `n` puts in a range of `len` bytes; none leaves the range as it is. -/
def Answer.content (a : Answer) (n len : Nat) : Option (List Byte) :=
  if a.keep then none else some ((List.range len).map fun k => a.bytes.getD k (Config.freeByte n k))

/-- A range of `BUF` after an oracle answer: the bytes of the range that exist (R61) take what the answer gives them. -/
def State.drawBuf (s : State) (off : Nat) (content : Option (List Byte)) : State :=
  match content with
  | none => s
  | some bs => if off < bufLen then s.putBuf off (bs.take (bufLen - off)) else s

/-! ## The stores (R62, R63, R66, R67) -/

/-- Bytes of one store slot (R9, D24). -/
def slotSize : Nat := 512

/-- The written bytes of a store. -/
def State.store (s : State) (sp : Space) : Memory :=
  match sp with
  | .pstore => s.pstore
  | .vstore => s.vstore

/-- Byte `a` of a store: what was last written, else the image's initial content (R66). -/
def State.storeByte (s : State) (sp : Space) (a : Nat) : Byte :=
  match (s.store sp).lookup a with
  | some b => b
  | none => match sp with
    | .pstore => Config.pstoreInitial a
    | .vstore => Config.vstoreInitial a

/-- The 512 bytes of a slot. -/
def State.slotBytes (s : State) (sp : Space) (address : Nat) : List Byte :=
  (List.range slotSize).map fun k => s.storeByte sp (slotSize * address + k)

/-- Write a run of bytes of a store. -/
def State.putStore (s : State) (sp : Space) (a : Nat) (bs : List Byte) : State :=
  match sp with
  | .pstore => { s with pstore := s.pstore.writeBlock a bs }
  | .vstore => { s with vstore := s.vstore.writeBlock a bs }

/-- `MemRead(space, address, 512)` into `BUF[9..520]` (R66, R67, R220): the status, and the state with the slot's bytes in the
payload region, or on a non-zero status with whatever the answer leaves there (U5). -/
def State.readSlot (s : State) (sp : Space) (address : Nat) : Nat × State :=
  let called := (s.call (.memRead sp address)).tookAnswer
  if s.answer.st = 0 then (0, called.putBuf 9 (s.slotBytes sp address))
  else (s.answer.st, called.drawBuf 9 (s.answer.content s.draws slotSize))

/-- Write `bs` at byte `k` of a slot (R66, R67): the status, and the state with the bytes written, or on a non-zero status with
whatever the answer leaves in the whole slot (U6). -/
def State.writeSlot (s : State) (c : Call) (sp : Space) (address k : Nat) (bs : List Byte) : Nat × State :=
  let called := (s.call c).tookAnswer
  if s.answer.st = 0 then (0, called.putStore sp (slotSize * address + k) bs)
  else (s.answer.st,
    match s.answer.content s.draws slotSize with
    | none => called
    | some drawn => called.putStore sp (slotSize * address) drawn)

end Sys2Proof.Machine
end

