-- ==== Sys2Proof/Machine/Operands.lean ====
section
/-!
DEFINITION. The operand forms of R104: a drive number, a buffer range, the line bits of the handlers' operands, a signed
delta, and the field assembly of the header bytes (R95 to R98).
-/

namespace Sys2Proof.Machine

/-- A drive operand names a drive the topology has (R9), or the operation is refused. -/
def onDrive (d : DriveId) (s : State) (k : Outcome State) : Outcome State :=
  if s.params.hasDrive d then k else .refused .noSuchDrive

/-- A sequencer operation of drive `d` is taken only while the other drive is Deselected: "The two sequencers are not parallel agents: they
are run by the one main loop, one at a time" (R279), "at most one drive has `run = Selected`" (R44). What it does otherwise no rule says: no
transition happens, as R194 says of `SEQ.DISP` (DEDUCED, assumption log 11). -/
def onSequencer (d : DriveId) (s : State) (k : Outcome State) : Outcome State :=
  onDrive d s (if (s.other d).step = .idle then k else .next s)

/-- The range of a CRC operation lies inside `BUF`, or it is refused: "A store call or CRC operation given a buffer range outside
`BUF[0..535]`" is `refuse` (U16), "`off + len > 536` ... is `refuse` for a model given it directly" (R123). The CRC operations of `FRM.HDR` and
`HDR.CHK` are among them. -/
def onRange (off len : Nat) (k : Outcome State) : Outcome State :=
  if inBuf off len then k else .refused .bufferRange

/-- A host operation is admitted only when every drive is `(Deselected, IDLE)` (R248). -/
def onIdle (s : State) (k : Outcome State) : Outcome State :=
  if s.allIdle then k else .refused .hostOpWhileSelected

/-! ## Handler operands -/

/-- `f[0]`: STEPDIR asserted at the edge (R170). -/
def edgeStepDir (f : Byte) : Bool := f.getLsbD 0

/-- `f[1]`: the edge met the platform's validity condition (R170, R171). -/
def edgeValid (f : Byte) : Bool := f.getLsbD 1

/-- `l[0]`: SELECT_A asserted (R190). -/
def selectA (l : Byte) : Bool := l.getLsbD 0

/-- `l[1]`: SELECT_B asserted (R190). -/
def selectB (l : Byte) : Bool := l.getLsbD 1

/-- `l[2]`: MOTOR_A asserted (R190). -/
def motorA (l : Byte) : Bool := l.getLsbD 2

/-! ## Header fields -/

/-- Track byte `T = track[7:0]` (R95). -/
def trackByte (x : Drive) : Byte := lo8 x.track

/-- Side byte `H = zext_8(side)` (R96). -/
def sideByte (x : Drive) : Byte := x.side.setWidth 8

/-- Sector number byte `S = (sector + k)[7:0]`: `k` is 1, and 2 for the second half of a pair (R97). -/
def sectorByte (x : Drive) (k : Nat) : Byte := BitVec.ofNat 8 (x.sector.toNat + k)

/-! ## Numbers -/

/-- `clamp(v, lo, hi)` (R10). -/
def clamp (v lo hi : Int) : Int := if v < lo then lo else if hi < v then hi else v

/-- `v` fits a two's complement word of `TRACK_BITS` = `DELTA_BITS` = 16 bits (D3). -/
def fitsSigned16 (v : Int) : Bool := decide (-32768 ≤ v) && decide (v ≤ 32767)

end Sys2Proof.Machine
end

