-- ==== Sys2Proof/Machine/Image.lean ====
section
/-!
DEFINITION. The descriptor and Drive Runtime host operations (spec/45_host.md, rules R240 to R248).
-/

namespace Sys2Proof.Machine

/-- The descriptor after a successful load (R240). -/
def Image.loaded (numTrack : Word16) (numSec : Byte) (startSector : Word32) (ro : Bool) : Image where
  flags := .loaded ro
  numTrack := numTrack
  numSec := numSec
  startSector := startSector
  fName := true
  geometryLoaded := true

/-- The descriptor after an eject (R241): identity and flags cleared, CHANGED forced, geometry stale. -/
def Image.ejected (x : Image) : Image := { x with fName := false, flags := .ejected }

/-- `drv[d].img <- x`. -/
def State.setImg (s : State) (d : DriveId) (x : Image) : State := s.setDrv d { s.drv d with img := x }

/-- The load of R240, shared by the descriptor and the Drive Runtime ("and nothing more", R246): a failed load changes nothing and
returns `LoadError`. -/
def State.loadImage (s : State) (d : DriveId) (numTrack : Word16) (numSec : Byte) (startSector : Word32) (ro ok : Bool) : State :=
  if ok then (s.setImg d (.loaded numTrack numSec startSector ro)).returningOk else s.returning (.status .loadError)

/-- `IMG.LOAD` (R240). -/
def execImgLoad (d : DriveId) (numTrack : Word16) (numSec : Byte) (startSector : Word32) (ro ok : Bool) (s : State) :
    Outcome State :=
  onDrive d s (onIdle s (.next (s.loadImage d numTrack numSec startSector ro ok)))

/-- `IMG.EJECT` (R241). -/
def execImgEject (d : DriveId) (s : State) : Outcome State :=
  onDrive d s (onIdle s (.next (s.setImg d (s.drv d).img.ejected).returningOk))

/-- `IMG.RDY`: `isReady` (R242). -/
def execImgRdy (d : DriveId) (s : State) : Outcome State :=
  onDrive d s (onIdle s (.next (s.returning (.bool (s.drv d).img.flags.ready))))

/-- `IMG.RO`: `isReadonly` (R243). -/
def execImgRo (d : DriveId) (s : State) : Outcome State :=
  onDrive d s (onIdle s (.next (s.returning (.bool (s.drv d).img.flags.readonly))))

/-- `IMG.CHG`: `isChanged` (R244). -/
def execImgChg (d : DriveId) (s : State) : Outcome State :=
  onDrive d s (onIdle s (.next (s.returning (.bool (s.drv d).img.flags.changed))))

/-- `IMG.CLRCHG`: `clrChanged` (R245). -/
def execImgClrchg (d : DriveId) (s : State) : Outcome State :=
  onDrive d s (onIdle s (.next (s.setImg d { (s.drv d).img with flags := (s.drv d).img.flags.clrChanged }).returningOk))

/-- `DRV.LOAD` (R246). -/
def execDrvLoad (d : DriveId) (numTrack : Word16) (numSec : Byte) (startSector : Word32) (ro ok : Bool) (s : State) :
    Outcome State :=
  onDrive d s (onIdle s (.next (s.loadImage d numTrack numSec startSector ro ok)))

/-- The drive after `DRV.EJECT` (R247): the descriptor ejected, `track`, `side`, `sector` 0. -/
def Drive.ejected (x : Drive) : Drive :=
  { x with img := x.img.ejected, track := 0#16, side := 0#1, sector := 0#8 }

/-- `DRV.EJECT` (R247). -/
def execDrvEject (d : DriveId) (s : State) : Outcome State :=
  onDrive d s (onIdle s (.next (s.setDrv d (s.drv d).ejected).returningOk))

end Sys2Proof.Machine
end

