-- ==== Sys2Proof/Machine/Reset.lean ====
section
/-!
DEFINITION. `SYS.RESET` (spec/70_reset_and_hazards.md rule R300): every register at the value of R46's table, "the registers that
table marks unspecified take a draw".
-/

namespace Sys2Proof.Machine

/-- The descriptor after `SYS.RESET`: R46, with drawn geometry that counts as never loaded (R211). -/
def Image.drawn (p : Params) (n k : Nat) : Image :=
  { Image.reset p.resetChanged with
    numTrack := Config.freeWord16 n k, numSec := Config.freeByte n k, startSector := Config.freeWord32 n k }

/-- A drive after `SYS.RESET`: R46, with drawn `lba` and geometry; `k` keeps the two drives' draws apart. -/
def Drive.drawn (p : Params) (d : DriveId) (n k : Nat) : Drive :=
  { Drive.reset p d with lba := Config.freeWord32 n (k + 1), img := Image.drawn p n k }

/-- The block after `SYS.RESET` (R300, R46). The parameters, the input lines, the stores, the report channel and the events still to
come are not the block's registers and stay. Draw `n` gives the registers, draw `n + 1` the buffer. -/
def State.restarted (s : State) : State where
  params := s.params
  drv0 := Drive.drawn s.params .drive0 s.draws 0
  drv1 := Drive.drawn s.params .drive1 s.draws 2
  pendingTrackDelta := 0#16
  trackChangedFlag := false
  selector := .none
  buf := []
  crc := Config.freeWord16 s.draws 1
  out := Outputs.reset
  inp := s.inp
  pstore := s.pstore
  vstore := s.vstore
  reports := s.reports
  calls := s.calls
  result := .nothing
  busyWait := none
  trace := s.trace
  answers := s.answers
  draws := s.draws + 2
  bufDraw := s.draws + 1

/-- `SYS.RESET` (R300): atomic against everything (R307). -/
def execSysReset (s : State) : Outcome State := .next s.restarted

end Sys2Proof.Machine
end

