-- ==== Sys2Proof/Machine/Position.lean ====
section
/-!
DEFINITION. The position state machine (spec/42_position.md, rules R170 to R179): `STP.EDGE`, `POS.TAKE`, `POS.APPLY`.
-/

namespace Sys2Proof.Machine

/-- `pendingTrackDelta` plus or minus one as an integer: "if asserted, decrements ..., else increments" (R170). -/
def steppedDelta (stepDir : Bool) (delta : Word16) : Int := if stepDir then delta.toInt - 1 else delta.toInt + 1

/-- `STP.EDGE f`, one atomic action (R170): a bouncing edge is a no-op (R171); a step past the 16-bit range is the fault of R177. -/
def execStpEdge (f : Byte) (s : State) : Outcome State :=
  if edgeValid f then
    if fitsSigned16 (steppedDelta (edgeStepDir f) s.pendingTrackDelta) then
      .next { s with pendingTrackDelta := BitVec.ofInt 16 (steppedDelta (edgeStepDir f) s.pendingTrackDelta),
                     trackChangedFlag := true }
    else .fault .deltaOverflow
  else .next s

/-- The state after the atomic read-and-clear (R173). -/
def State.deltaCleared (s : State) : State :=
  if s.trackChangedFlag then { s with pendingTrackDelta := 0#16, trackChangedFlag := false } else s

/-- The delta that `POS.TAKE` returns (R173). -/
def State.takenDelta (s : State) : Word16 := if s.trackChangedFlag then s.pendingTrackDelta else 0#16

/-- `POS.TAKE` (R173). -/
def execPosTake (s : State) : Outcome State :=
  .next (s.deltaCleared.returning (.take s.trackChangedFlag s.takenDelta))

/-- The new head position as an integer: `clamp(track + delta, 0, numTrack - 1)` (R175). -/
def clampedTrack (x : Drive) (delta : Word16) : Int :=
  clamp (x.track.toInt + delta.toInt) 0 ((x.img.numTrack.toNat : Int) - 1)

/-- The new `track` (R175). A position that fits no 16-bit two's complement word, which only an illegal `numTrack` above 32768
allows, has no stated value: a free value (assumption log 6). -/
def State.newTrack (s : State) (d : DriveId) (delta : Word16) : Word16 :=
  if fitsSigned16 (clampedTrack (s.drv d) delta) then BitVec.ofInt 16 (clampedTrack (s.drv d) delta)
  else Config.freeWord16 s.draws 0

/-- `POS.APPLY d, dl` as an action (R175, R176): the position, then TRACK0, then DISK_CHANGE. -/
def State.applyDelta (s : State) (d : DriveId) (delta : Word16) : State :=
  let moved := s.setDrv d { s.drv d with track := s.newTrack d delta }
  { moved with
    out := { s.out with track0 := track0Level (s.newTrack d delta)
                        diskChange := diskChangeAtStep (s.drv d).img.flags (s.vdisk d) }
    draws := if fitsSigned16 (clampedTrack (s.drv d) delta) then s.draws else s.draws + 1 }

/-- `POS.APPLY` (R175). -/
def execPosApply (d : DriveId) (delta : Word16) (s : State) : Outcome State :=
  onDrive d s (.next (s.applyDelta d delta).returningOk)

end Sys2Proof.Machine
end

