-- ==== Sys2Proof/Machine/Crc.lean ====
section
/-!
DEFINITION. The CRC generator (spec/40_crc.md, rules R120 to R128): the one CRC function of the block (R127) and the meanings
of `CRC.RST`, `CRC.BIT`, `CRC.BYTE`, `CRC.BLK`, `CRC.PUT`, `CRC.CMP`.
-/

namespace Sys2Proof.Machine

/-- One shift of the register (R121): `fb = crc[15] xor b`, then `(crc[14:0] ‖ 0) xor (fb ? CRC_POLY : 0)`. -/
def crcBit (poly crc : Word16) (b : Bool) : Word16 :=
  (crc <<< 1) ^^^ (if (crc.getLsbD 15 ^^ b) then poly else 0#16)

/-- One byte, bit 7 first (R122, R69). -/
def crcByte (poly crc : Word16) (x : Byte) : Word16 :=
  [7, 6, 5, 4, 3, 2, 1, 0].foldl (fun c i => crcBit poly c (x.getLsbD i)) crc

/-- A run of bytes, lowest index first (R123). -/
def crcBytes (poly crc : Word16) (bs : List Byte) : Word16 := bs.foldl (crcByte poly) crc

/-- `CRC.BLK off, len` as an action: the register holds the CRC of `BUF[off .. off+len-1]` (R123). -/
def State.crcBlock (s : State) (off len : Nat) : State :=
  { s with crc := crcBytes s.params.crcPoly s.params.crcInit (s.bufRange off len) }

/-- `CRC.PUT off` as an action: the register into two bytes, high byte first (R124, R68). -/
def State.crcPut (s : State) (off : Nat) : State := s.putBuf off [hi8 s.crc, lo8 s.crc]

/-- `CRC.CMP off` as a test: the two bytes equal the register (R125). -/
def State.crcMatches (s : State) (off : Nat) : Bool :=
  s.bufByte off == hi8 s.crc && s.bufByte (off + 1) == lo8 s.crc

/-- `CRC.RST`: `crc <- CRC_INIT` (R120). -/
def execCrcRst (s : State) : Outcome State :=
  .next { s with crc := s.params.crcInit, result := .status .ok }

/-- `CRC.BIT b`: one shift; bits 7..1 of the operand byte are ignored (R121). -/
def execCrcBit (b : Byte) (s : State) : Outcome State :=
  .next { s with crc := crcBit s.params.crcPoly s.crc (b.getLsbD 0), result := .status .ok }

/-- `CRC.BYTE x` (R122). -/
def execCrcByte (x : Byte) (s : State) : Outcome State :=
  .next { s with crc := crcByte s.params.crcPoly s.crc x, result := .status .ok }

/-- `CRC.BLK off, len`: the result is the register (R123). -/
def execCrcBlk (off len : Word16) (s : State) : Outcome State :=
  onRange off.toNat len.toNat (.next ((s.crcBlock off.toNat len.toNat).returning
    (.crc (s.crcBlock off.toNat len.toNat).crc)))

/-- `CRC.PUT off` (R124). -/
def execCrcPut (off : Word16) (s : State) : Outcome State :=
  onRange off.toNat 2 (.next (s.crcPut off.toNat).returningOk)

/-- `CRC.CMP off`: the result goes to the caller (R125). -/
def execCrcCmp (off : Word16) (s : State) : Outcome State :=
  onRange off.toNat 2 (.next (s.returning (.bool (s.crcMatches off.toNat))))

end Sys2Proof.Machine
end

