-- ==== Sys2Proof/Machine/Framer.lean ====
section
/-!
DEFINITION. The sector framer, the checkers and the transceiver calls (spec/41_framer.md, rules R140 to R146, R153 to R155),
and the three frame formats as rows of the table. The composites of step 6 are in Slot.lean.
-/

namespace Sys2Proof.Machine

/-! ## Building frames -/

/-- `FRM.HDR base, T, H, S, N` as an action (R140): mark, four fields, CRC over the five bytes, gap. -/
def State.buildHeader (s : State) (base : Nat) (t h sec n : Byte) : State :=
  (((s.putBuf base [0xFE#8, t, h, sec, n]).crcBlock base 5).crcPut (base + 5)).putNamed (base + 7) 0x4E#8

/-- The trailer of a data field: the register, then the gap byte (R141 to R143). -/
def State.putTrailer (s : State) (off : Nat) : State := (s.crcPut off).putBuf (off + 2) [0x4E#8]

/-- `FRM.DAT512` as an action (R141): mark, CRC over mark and 512 payload bytes, trailer. -/
def State.frameFull (s : State) : State := ((s.putBuf 8 [0xFB#8]).crcBlock 8 513).putTrailer 521

/-- `FRM.DAT256A` as an action (R142): mark, CRC over mark and 256 bytes, `SCR3` saved, trailer over the second half's start. -/
def State.frameFirstHalf (s : State) : State :=
  (((s.putBuf 8 [0xFB#8]).crcBlock 8 257).copyBuf 524 265 3).putTrailer 265

/-- `FRM.DAT256B` as an action (R143): `SCR9` saved, an ID field and a mark laid over the first half's tail, CRC over mark and
256 bytes, trailer. -/
def State.frameSecondHalf (s : State) (d : DriveId) : State :=
  (((((s.copyBuf 527 256 9).buildHeader 256 (trackByte (s.drv d)) (sideByte (s.drv d)) (sectorByte (s.drv d) 2) 1#8).putBuf
    264 [0xFB#8]).crcBlock 264 257).putTrailer 521)

/-- `BUF[265..267] <- SCR3` (R151). -/
def State.restoreSplice (s : State) : State := s.copyBuf 265 524 3

/-- `BUF[256..264] <- SCR9` (R152). -/
def State.restoreTail (s : State) : State := s.copyBuf 256 527 9

/-- `FRM.HDR` (R140). Its `CRC.BLK(base, 5)` and `CRC.PUT base+5` range over seven bytes (U16); the gap byte is a plain write. -/
def execFrmHdr (base : Word16) (t h sec n : Byte) (s : State) : Outcome State :=
  onRange base.toNat 7 (.next (s.buildHeader base.toNat t h sec n).returningOk)

/-- `FRM.DAT512` (R141). -/
def execFrmDat512 (s : State) : Outcome State := .next s.frameFull.returningOk

/-- `FRM.DAT256A` (R142). -/
def execFrmDat256A (s : State) : Outcome State := .next s.frameFirstHalf.returningOk

/-- `FRM.DAT256B` of the running drive (R143). -/
def execFrmDat256B (s : State) : Outcome State := .next (s.foundRunning.frameSecondHalf s.runningDrive).returningOk

/-! ## Checking frames -/

/-- What `HDR.CHK` returns once the CRC of the five bytes is in the register (R144): the CRC test, then the length code. -/
def State.headerVerdict (s : State) (base : Nat) : Returned :=
  if s.crcMatches (base + 5) && legalLengthCode (s.bufByte (base + 4)) then
    .header (s.bufByte (base + 1)) (s.bufByte (base + 2)) (s.bufByte (base + 3)) (s.bufByte (base + 4))
  else .status .hdrBad

/-- `HDR.CHK base` past the test of the mark, as an action (R144). -/
def State.checkHeader (s : State) (base : Nat) : State :=
  (s.crcBlock base 5).returning ((s.crcBlock base 5).headerVerdict base)

/-- `HDR.CHK` (R144): the mark is tested first, and without it no CRC operation is reached; with it `CRC.BLK(base, 5)` and `CRC.CMP(base+5)`
range over seven bytes (U16). The gap byte is not examined. -/
def execHdrChk (base : Word16) (s : State) : Outcome State :=
  if s.namedByte base.toNat == 0xFE#8 then onRange base.toNat 7 (.next (s.checkHeader base.toNat))
  else .next ((s.tookNamed base.toNat 1).returning (.status .hdrBad))

/-- Where the data field of half `h` begins: `(h == 0) ? 8 : 264` (R146). -/
def halfBase (h : Nat) : Nat := if h = 0 then 8 else 264

/-- The register after `DAT.CHK512` (R145). -/
def State.checkedFull (s : State) : State := s.crcBlock 8 513

/-- `DAT.CHK512` as a test (R145): `CRC.BLK(8, 513)`, `CRC.CMP(521)`. -/
def State.fullMatches (s : State) : Bool := s.checkedFull.crcMatches 521

/-- The register after `DAT.CHK256 h` (R146). -/
def State.checkedHalf (s : State) (h : Nat) : State := s.crcBlock (halfBase h) 257

/-- `DAT.CHK256 h` as a test (R146): `CRC.BLK(b, 257)`, `CRC.CMP(b + 257)`. -/
def State.halfMatches (s : State) (h : Nat) : Bool := (s.checkedHalf h).crcMatches (halfBase h + 257)

/-- `DAT.CHK512` (R145). -/
def execDatChk512 (s : State) : Outcome State := .next (s.checkedFull.returning (.bool s.fullMatches))

/-- `DAT.CHK256 h` (R146). -/
def execDatChk256 (h : Byte) (s : State) : Outcome State :=
  .next ((s.checkedHalf h.toNat).returning (.bool (s.halfMatches h.toNat)))

/-! ## The transceiver (R153 to R155) -/

/-- `XCV.TX base, len` as an action (R154): hand the bytes to the transceiver with the drive's `bitLength`. -/
def State.transmit (s : State) (d : DriveId) (base len : Nat) : State :=
  s.call (.transmit (s.bufRange base len) (s.drv d).bitLength)

/-- The status of the next readback: `OK` or `Fail` (R155). -/
def State.readbackOk (s : State) : Bool := s.answer.st == 0

/-- `XCV.RB base, len` as an action, with WRITE_GATE released (R155): the range holds what the answer leaves in it, on `Fail` as
well as on `OK`. -/
def State.readBack (s : State) (base len : Nat) : State :=
  ((s.call (.readback base len)).tookAnswer).drawBuf base (s.answer.content s.draws len)

/-- The main loop enters the busy-wait of operation `i` (R155, R314): nothing else happens. -/
def State.waiting (s : State) (i : Instr) : State := { s with busyWait := some i }

/-- `XCV.TX` of drive `d` with the bytes its operands name (R154). -/
def State.transmitNamed (s : State) (d : DriveId) (base len : Nat) : State :=
  (s.call (.transmit (s.namedRange base len) (s.drv d).bitLength)).tookNamed base len

/-- `XCV.TX` of the running drive (R154). -/
def execXcvTx (base len : Word16) (s : State) : Outcome State :=
  .next (s.foundRunning.transmitNamed s.runningDrive base.toNat len.toNat).returningOk

/-- `XCV.RB` (R155): "wait until not asserted(WRITE_GATE)", then the readback. -/
def execXcvRb (base len : Word16) (s : State) : Outcome State :=
  if s.inp.writeGate = .asserted then .next (s.waiting (.xcvRb base len))
  else .next ((s.readBack base.toNat len.toNat).returning (.readback s.readbackOk))

/-! ## The frame formats

"Two kinds of encoding exist" (R90): a frame is a byte string the framer builds, and `0xFE` and `0xFB` are no selectors of R104.
"Every selector value not in rule R104 is reserved: it names no operation" (R105). -/

/-- `FRAME.ID` as an operation (R105). -/
def execFrameId (_t _h _sec _n : Byte) (_crc : Word16) (_s : State) : Outcome State := .refused .frameIsNoOperation

/-- `FRAME.DATA512` as an operation (R105). -/
def execFrameData512 (_payload : List Byte) (_crc : Word16) (_s : State) : Outcome State := .refused .frameIsNoOperation

/-- `FRAME.DATA256` as an operation (R105). -/
def execFrameData256 (_payload : List Byte) (_crc : Word16) (_s : State) : Outcome State := .refused .frameIsNoOperation

end Sys2Proof.Machine
end

