-- ==== Sys2Proof/Machine/Storage.lean ====
section
/-!
DEFINITION. The sector read path and write path (spec/44_storage.md, rules R220 to R229) and the persisting of one half
(spec/41_framer.md rule R156).
-/

namespace Sys2Proof.Machine

/-- Where a transfer of a drive goes (R221). -/
inductive Target where
  /-- a slot of the physical block store -/
  | physical (index : Nat)
  /-- a slot of the virtual store -/
  | virtual (address : Nat)
  /-- no store (R224) -/
  | noMedia
  /-- the model refuses (U3, U8) -/
  | stop (why : Refusal)
  deriving DecidableEq, Repr

/-- The physical index as an integer (R221): `startSector + (lba >> 1)` with half-sector folding, else `startSector + lba`. -/
def physicalIndex (half : Bool) (x : Drive) : Nat :=
  x.img.startSector.toNat + (if half then x.lba.toNat / 2 else x.lba.toNat)

/-- Address resolution, "used by both paths" (R221): READY, else a virtual image, else no store. `half` says whether half-sector
folding applies. -/
def State.resolve (s : State) (half : Bool) (d : DriveId) : Target :=
  if (s.drv d).img.flags.ready then
    if physicalIndex half (s.drv d) < 2 ^ 32 then .physical (physicalIndex half (s.drv d))
    else .stop .addressOutsideModel
  else if s.vdisk d then
    if half then .stop .halfSectorOnVirtualStore else .virtual (s.drv d).lba.toNat
  else .noMedia

/-! ## The read path -/

/-- The end of the read path (R220): a non-zero status is reported and returned. -/
def finishRead (d : DriveId) (r : Nat × State) : Status × State :=
  if r.1 = 0 then (.ok, r.2) else (.storageReadError, r.2.report .storageReadError d 0 r.1)

/-- `SEC.RD d` as an action (R220), where the target is not a refusal. -/
def State.readSector (s : State) (d : DriveId) : Status × State :=
  match s.resolve (s.params.half d) d with
  | .physical idx => finishRead d (s.readSlot .pstore idx)
  | .virtual a => finishRead d (s.readSlot .vstore a)
  | .noMedia => (.noMedia, s)
  | .stop _ => (.noMedia, s)

/-- Why `SEC.RD d` is refused, if it is (U3, U8). -/
def State.readStop (s : State) (d : DriveId) : Option Refusal :=
  match s.resolve (s.params.half d) d with
  | .stop r => some r
  | _ => none

/-- `SEC.RD d` (R220). -/
def execSecRd (d : DriveId) (s : State) : Outcome State :=
  onDrive d s <|
    match s.readStop d with
    | some r => .refused r
    | none => .next ((s.readSector d).2.returning (.status (s.readSector d).1))

/-! ## The write path -/

/-- The end of the write path (R225): a non-zero status is reported and returned. -/
def finishWrite (d : DriveId) (off : Nat) (r : Nat × State) : Status × State :=
  if r.1 = 0 then (.ok, r.2) else (.storageWriteError, r.2.report .storageWriteError d off r.1)

/-- The write path of a full sector (R225), where the target is not a refusal: the CRC test guards every store write (R226), and
what is written is `BUF[9..520]` (R227). READONLY is not tested (R229). -/
def State.writeFull (s : State) (d : DriveId) : Status × State :=
  if s.fullMatches then
    match s.resolve false d with
    | .physical idx =>
      finishWrite d 0 (s.checkedFull.writeSlot (.memWrite .pstore idx) .pstore idx 0 (s.bufRange 9 512))
    | .virtual a => finishWrite d 0 (s.checkedFull.writeSlot (.memWrite .vstore a) .vstore a 0 (s.bufRange 9 512))
    | .noMedia => (.noMedia, s.checkedFull)
    | .stop _ => (.noMedia, s.checkedFull)
  else (.crcMismatch, s.checkedFull.report .crcMismatch d 0 0)

/-- `HALF.WR d, h` (R156), where the target is not a refusal: the half's CRC test, then its 256 payload bytes into its half of the
slot, and without a medium "nothing", which is no error (R261: `NoMedia` is raised by `SEC.RD` and `SEC.WR` only). `off` is what the report adds
to `sector` and `lba`. -/
def State.writeHalf (s : State) (d : DriveId) (h off : Nat) : Status × State :=
  if s.halfMatches h then
    match s.resolve true d with
    | .physical idx =>
      finishWrite d off ((s.checkedHalf h).writeSlot (.halfWrite idx h) .pstore idx (256 * h) (s.bufRange (9 + 256 * h) 256))
    | .virtual _ => (.ok, s.checkedHalf h)
    | .noMedia => (.ok, s.checkedHalf h)
    | .stop _ => (.ok, s.checkedHalf h)
  else (.crcMismatch, (s.checkedHalf h).report .crcMismatch d off 0)

/-- The logical half of the drive's block: `lba[0]` (R221). -/
def lbaHalf (x : Drive) : Nat := x.lba.toNat % 2

/-- What `SEC.WR` returns for a write that ended with `st`: `NoMedia` where there was no store to write to (R224). -/
def State.withMedia (s : State) (d : DriveId) (st : Status) : Status :=
  if st = .ok ∧ s.resolve true d = .noMedia then .noMedia else st

/-- `SEC.WR d` as an action: the full-sector path (R225), or in half-sector mode R156 for the half `lba[0]` that R221 names
(assumption log 10). -/
def State.writeSector (s : State) (d : DriveId) : Status × State :=
  if s.params.half d then
    (s.withMedia d (s.writeHalf d (lbaHalf (s.drv d)) 0).1, (s.writeHalf d (lbaHalf (s.drv d)) 0).2)
  else s.writeFull d

/-- The CRC test of `SEC.WR d`. -/
def State.writeMatches (s : State) (d : DriveId) : Bool :=
  if s.params.half d then s.halfMatches (lbaHalf (s.drv d)) else s.fullMatches

/-- Why a write of drive `d` whose data passed its CRC test (`clean`) is refused, if it is (U3, U8). The test comes first: a
mismatch is reported and no address is resolved (R226). -/
def State.writeStop (s : State) (half : Bool) (d : DriveId) (clean : Bool) : Option Refusal :=
  match s.resolve half d with
  | .stop r => if clean then some r else none
  | _ => none

/-- `SEC.WR d` (R225). -/
def execSecWr (d : DriveId) (s : State) : Outcome State :=
  onDrive d s <|
    match s.writeStop (s.params.half d) d (s.writeMatches d) with
    | some r => .refused r
    | none => .next ((s.writeSector d).2.returning (.status (s.writeSector d).1))

end Sys2Proof.Machine
end

