-- ==== Sys2Proof/Machine/Slot.lean ====
section
/-!
DEFINITION. Step 6 of the sector slot (spec/41_framer.md, rules R147 to R152, R156 to R158): `FRM.SLOT512` and `FRM.SLOT256`.
-/

namespace Sys2Proof.Machine

/-- The format asked of the transceiver: `fmt = HALF[d] ? 256 : 512` (R148). -/
def formatOf (p : Params) (d : DriveId) : Format := if p.half d then .half256 else .full512

/-- `XCV.supports(fmt, bitLength)` for drive `d` (R148). -/
def State.supported (s : State) (d : DriveId) : Bool :=
  s.params.supports (formatOf s.params d) (s.drv d).bitLength

/-- The unsupported format: one report, `BUF` unchanged, nothing transmitted (R148). -/
def State.unsupportedSlot (s : State) (d : DriveId) : Status × State :=
  (.unsupportedFormat, s.report .unsupportedFormat d 0 0)

/-! ## A full sector -/

/-- The framed and transmitted full sector (R147): header, data field, `XCV.TX 0, 524`. -/
def State.sendFull (s : State) (d : DriveId) : State :=
  ((s.buildHeader 0 (trackByte (s.drv d)) (sideByte (s.drv d)) (sectorByte (s.drv d) 1) 2#8).frameFull).transmit d 0 524

/-- `FRM.SLOT512 d` past the format test, with WRITE_GATE released (R147): readback, then the write path on a clean verify. -/
def State.slotFull (s : State) (d : DriveId) : Status × State :=
  if (s.sendFull d).readbackOk then ((s.sendFull d).readBack 8 516).writeSector d
  else (.transceiverReadback, ((s.sendFull d).readBack 8 516).report .transceiverReadback d 0 0)

/-- The write path of a full slot is reached with data that passes its CRC test. -/
def State.slotFullClean (s : State) (d : DriveId) : Bool :=
  (s.sendFull d).readbackOk && ((s.sendFull d).readBack 8 516).writeMatches d

/-! ## A half-sector pair -/

/-- The first half framed and transmitted (R150): `XCV.TX 0, 268`. -/
def State.sendFirst (s : State) (d : DriveId) : State :=
  ((s.buildHeader 0 (trackByte (s.drv d)) (sideByte (s.drv d)) (sectorByte (s.drv d) 1) 1#8).frameFirstHalf).transmit d 0 268

/-- The second half framed and transmitted (R150): `XCV.TX 256, 268`. -/
def State.sendSecond (s : State) (d : DriveId) : State := (s.frameSecondHalf d).transmit d 256 268

/-- One half after its transmission (R150): readback of its data field, then `HALF.WR` on a clean verify, else a report. -/
def State.verifyHalf (s : State) (d : DriveId) (h : Nat) : Status × State :=
  if s.readbackOk then (s.readBack (halfBase h) 260).writeHalf d h h
  else (.transceiverReadback, (s.readBack (halfBase h) 260).report .transceiverReadback d h 0)

/-- `HALF.WR` of a half is reached with data that passes its CRC test. -/
def State.verifyHalfClean (s : State) (h : Nat) : Bool := s.readbackOk && (s.readBack (halfBase h) 260).halfMatches h

/-- The state in which the second half is transmitted: the first half verified and its splice restored (R151). -/
def State.betweenHalves (s : State) (d : DriveId) : State :=
  (((s.sendFirst d).verifyHalf d 0).2.restoreSplice).sendSecond d

/-- `FRM.SLOT256 d` on an even sector, past the format test, with WRITE_GATE released (R150): both halves, "a failure in the first
half does not stop the second". Which of two errors is returned is the model's choice (DESIGN CHOICE, assumption log 5): the first half's. -/
def State.slotPair (s : State) (d : DriveId) : Status × State :=
  let first := (s.sendFirst d).verifyHalf d 0
  let second := (s.betweenHalves d).verifyHalf d 1
  (if first.1 = .ok then second.1 else first.1, second.2.restoreTail)

/-- `HALF.WR` of one of the halves is reached with data that passes its CRC test. -/
def State.slotPairClean (s : State) (d : DriveId) : Bool :=
  (s.sendFirst d).verifyHalfClean 0 || (s.betweenHalves d).verifyHalfClean 1

/-- The sector index is odd: "Transmission of half-sectors for odd logical indices is a no-op at this layer" (R150). -/
def Drive.oddSector (x : Drive) : Bool := x.sector.getLsbD 0

/-! ## Step 6 as one operation -/

/-- How step 6 ends: it waits for WRITE_GATE, it is refused, or it is done with a status. -/
inductive SlotEnd where
  | waits
  | stop (why : Refusal)
  | done (st : Status) (s : State)
  deriving DecidableEq, Repr

/-- `FRM.SLOT512 d` (R147, R148). The one place it waits is the readback (R155), so the operation is enabled only while WRITE_GATE
is released or the format is not supported. -/
def State.runSlot512 (s : State) (d : DriveId) : SlotEnd :=
  if s.supported d then
    if s.inp.writeGate = .asserted then .waits
    else match s.writeStop (s.params.half d) d (s.slotFullClean d) with
      | some r => .stop r
      | none => .done (s.slotFull d).1 (s.slotFull d).2
  else .done (s.unsupportedSlot d).1 (s.unsupportedSlot d).2

/-- `FRM.SLOT256 d` (R148, R150). -/
def State.runSlot256 (s : State) (d : DriveId) : SlotEnd :=
  if s.supported d then
    if (s.drv d).oddSector then .done .ok s
    else if s.inp.writeGate = .asserted then .waits
    else match s.writeStop true d (s.slotPairClean d) with
      | some r => .stop r
      | none => .done (s.slotPair d).1 (s.slotPair d).2
  else .done (s.unsupportedSlot d).1 (s.unsupportedSlot d).2

/-- `FRM.SLOT512` (R147). -/
def execFrmSlot512 (d : DriveId) (s : State) : Outcome State :=
  onDrive d s <|
    match s.runSlot512 d with
    | .waits => .next (s.waiting (.frmSlot512 d))
    | .stop r => .refused r
    | .done st t => .next (t.returning (.status st))

/-- `FRM.SLOT256` (R150). -/
def execFrmSlot256 (d : DriveId) (s : State) : Outcome State :=
  onDrive d s <|
    match s.runSlot256 d with
    | .waits => .next (s.waiting (.frmSlot256 d))
    | .stop r => .refused r
    | .done st t => .next (t.returning (.status st))

end Sys2Proof.Machine
end

