-- ==== Sys2Proof/Machine/Sync.lean ====
section
/-!
DEFINITION. The select handler and the sequencer (spec/43_sync.md, rules R190 to R211): `SEL.CHG` and the ten `SEQ` operations.
A sequencer operation is taken where the trace puts it, while no other drive is Selected; the order of R199 is the main loop's own
(MainLoop.lean, log 7).
-/

namespace Sys2Proof.Machine

/-! ## The select handler -/

/-- The two-drive topology (R191): "SELECT-A line alone addresses drive 0; SELECT-B line alone addresses drive 1"; both or
neither, none (D5). -/
def resolveTwoDrive (l : Byte) : Selector :=
  match selectA l, selectB l with
  | true, false => .drive0
  | false, true => .drive1
  | false, false => .none
  | true, true => .none

/-- The single-drive topology (R192): both SELECT-A and MOTOR-A. -/
def resolveSingleDrive (l : Byte) : Selector := if selectA l && motorA l then .drive0 else .none

/-- `resolve(TOPOLOGY, l)` (R190). -/
def resolveLines (t : Topology) (l : Byte) : Selector :=
  match t with
  | .twoDrive => resolveTwoDrive l
  | .singleDrive => resolveSingleDrive l

/-- `SEL.CHG l`, one atomic action (R190). -/
def execSelChg (l : Byte) (s : State) : Outcome State := .next { s with selector := resolveLines s.params.topology l }

/-! ## The transition to Selected and the entry actions -/

/-- `SEQ.DISP d` is enabled: every drive is Deselected and the selector names `d` (R194). -/
def State.dispatchEnabled (s : State) (d : DriveId) : Bool := s.allIdle && s.selected d

/-- `SEQ.DISP d` (R194). Where it is not enabled "no transition happens": the main loop waits (R199, IDLE). -/
def execSeqDisp (d : DriveId) (s : State) : Outcome State :=
  onDrive d s (.next (if s.dispatchEnabled d then (s.setStep d .enter).returningOk else s))

/-- The geometry the loop may use (R211, D25): `numTrack >= 1`, `numSec >= 1`, and `numSec` even in half-sector mode. A `numTrack`
above 32767 is not among R211's refusals (assumption log 15). -/
def geometryLegal (half : Bool) (img : Image) : Bool :=
  decide (1 ≤ img.numTrack.toNat) && decide (1 ≤ img.numSec.toNat)
    && (!half || decide (img.numSec.toNat % 2 = 0))

/-- The drive after the entry actions (R195, R197). -/
def Drive.entered (x : Drive) (vdisk : Bool) : Drive :=
  { x with sector := 0#8, step := .chk, img := { x.img with flags := x.img.flags.acknowledged vdisk } }

/-- `SEQ.ENTER d` as an action (R195 to R197). -/
def State.enterActions (s : State) (d : DriveId) : State :=
  { s.setDrv d ((s.drv d).entered (s.vdisk d)) with
    out := { s.out with diskChange := diskChangeAtEntry (s.drv d).img.flags s.out.diskChange
                        writeProtect := .assertedWhen (s.drv d).img.flags.readonly }
    calls := s.calls ++ [.arm (s.drv d).bitLength] }

/-- `SEQ.ENTER` (R195 to R197), refused on geometry the loop may not use (R211). -/
def execSeqEnter (d : DriveId) (s : State) : Outcome State :=
  onSequencer d s <|
    if (s.drv d).img.geometryLoaded then
      if geometryLegal (s.params.half d) (s.drv d).img then .next (s.enterActions d).returningOk
      else .refused .geometryOutsideModel
    else .refused .geometryNeverLoaded

/-! ## The loop -/

/-- `SEQ.CHK` (R200): one read of the selector decides between the slot and the exit. -/
def execSeqChk (d : DriveId) (s : State) : Outcome State :=
  onSequencer d s (.next (s.setStep d (if s.selected d then .side else .exit)).returningOk)

/-- `side` from the SIDE line: `asserted(SIDE) ? 1 : 0` (R201). -/
def sideOf (l : Level) : BitVec 1 :=
  match l with
  | .asserted => 1#1
  | .released => 0#1

/-- `SEQ.SIDE` (R201). -/
def execSeqSide (d : DriveId) (s : State) : Outcome State :=
  onSequencer d s (.next (s.setDrv d { s.drv d with side := sideOf s.inp.side, step := .pos }).returningOk)

/-- `SEQ.POS d` as an action (R202): `POS.TAKE`, then `POS.APPLY d, dl` if the flag was set. -/
def State.consumeDelta (s : State) (d : DriveId) : State :=
  if s.trackChangedFlag then s.deltaCleared.applyDelta d s.takenDelta else s

/-- `SEQ.POS` (R202). -/
def execSeqPos (d : DriveId) (s : State) : Outcome State :=
  onSequencer d s (.next ((s.consumeDelta d).setStep d .lba).returningOk)

/-- `(track*2 + side) * numSec + sector`, as integers (R203). -/
def lbaValue (x : Drive) : Int :=
  (x.track.toInt * 2 + x.side.toNat) * x.img.numSec.toNat + x.sector.toNat

/-- An `lba` value fits the 32-bit register. -/
def fitsLba (v : Int) : Bool := decide (0 ≤ v) && decide (v < 2 ^ 32)

/-- The new `lba` (R203). A value that fits no unsigned 32-bit word, which only a negative `track` allows, is not stated: a free
value (assumption log 6). -/
def State.newLba (s : State) (d : DriveId) : Word32 :=
  if fitsLba (lbaValue (s.drv d)) then BitVec.ofInt 32 (lbaValue (s.drv d)) else Config.freeWord32 s.draws 0

/-- `SEQ.LBA d` as an action (R203). -/
def State.computeLba (s : State) (d : DriveId) : State :=
  { s.setDrv d { s.drv d with lba := s.newLba d, step := .fetch } with
    draws := if fitsLba (lbaValue (s.drv d)) then s.draws else s.draws + 1 }

/-- `SEQ.LBA` (R203). -/
def execSeqLba (d : DriveId) (s : State) : Outcome State := onSequencer d s (.next (s.computeLba d).returningOk)

/-- The step after a fetch (R204): XFER when it is `OK` or `XMIT_AFTER_READ_FAIL`, else NEXT. -/
def stepAfterFetch (xmitAfterReadFail : Bool) (st : Status) : SeqStep :=
  if st = .ok ∨ xmitAfterReadFail = true then .xfer else .next

/-- `SEQ.FETCH` (R204): `SEC.RD d`. -/
def execSeqFetch (d : DriveId) (s : State) : Outcome State :=
  onSequencer d s <|
    match s.readStop d with
    | some r => .refused r
    | none => .next ((s.readSector d).2.setStep d
        (stepAfterFetch s.params.xmitAfterReadFail (s.readSector d).1)).returningOk

/-- The composite of step 6 (R205): `FRM.SLOT256 d` in half-sector mode, else `FRM.SLOT512 d`. -/
def State.runSlot (s : State) (d : DriveId) : SlotEnd :=
  if s.params.half d then s.runSlot256 d else s.runSlot512 d

/-- `SEQ.XFER` (R205). While its readback waits for WRITE_GATE the sequencer stays at XFER (R155, R314). -/
def execSeqXfer (d : DriveId) (s : State) : Outcome State :=
  onSequencer d s <|
    match s.runSlot d with
    | .waits => .next (s.waiting (.seqXfer d))
    | .stop r => .refused r
    | .done _ t => .next (t.setStep d .next).returningOk

/-- The new `sector` (R206): `(sector + 1 == numSec) ? 0 : sector + 1`. The successor of 255 fits no 8-bit word and is not stated: a
free value (assumption log 6). -/
def State.newSector (s : State) (d : DriveId) : Byte :=
  if (s.drv d).sector.toNat + 1 = (s.drv d).img.numSec.toNat then 0#8
  else if (s.drv d).sector.toNat + 1 < 256 then BitVec.ofNat 8 ((s.drv d).sector.toNat + 1)
  else Config.freeByte s.draws 0

/-- `SEQ.NEXT d` as an action (R206). -/
def State.advanceSector (s : State) (d : DriveId) : State :=
  { s.setDrv d { s.drv d with sector := s.newSector d, step := .chk } with
    draws := if (s.drv d).sector.toNat + 1 < 256 then s.draws else s.draws + 1 }

/-- `SEQ.NEXT` (R206). -/
def execSeqNext (d : DriveId) (s : State) : Outcome State := onSequencer d s (.next (s.advanceSector d).returningOk)

/-- `SEQ.EXIT d` as an action (R207). -/
def State.exitActions (s : State) (d : DriveId) : State :=
  { s.setStep d .idle with out := { s.out with diskChange := .released, writeProtect := .released } }

/-- `SEQ.EXIT` (R207). -/
def execSeqExit (d : DriveId) (s : State) : Outcome State := onSequencer d s (.next (s.exitActions d).returningOk)

end Sys2Proof.Machine
end

