-- ==== Sys2Proof/Machine/Dispatch.lean ====
section
/-!
DEFINITION. The dispatcher: one arm per row of spec/opcode_table.json.
-/

namespace Sys2Proof.Machine

def exec (i : Instr) (s : State) : Host.Outcome State Fault Refusal :=
  match i with
  | .crcRst => Sys2Proof.Machine.execCrcRst s
  | .crcBit b => Sys2Proof.Machine.execCrcBit b s
  | .crcByte x => Sys2Proof.Machine.execCrcByte x s
  | .crcBlk off len => Sys2Proof.Machine.execCrcBlk off len s
  | .crcPut off => Sys2Proof.Machine.execCrcPut off s
  | .crcCmp off => Sys2Proof.Machine.execCrcCmp off s
  | .frmHdr base t h sec n => Sys2Proof.Machine.execFrmHdr base t h sec n s
  | .frmDat512 => Sys2Proof.Machine.execFrmDat512 s
  | .frmDat256A => Sys2Proof.Machine.execFrmDat256A s
  | .frmDat256B => Sys2Proof.Machine.execFrmDat256B s
  | .hdrChk base => Sys2Proof.Machine.execHdrChk base s
  | .datChk512 => Sys2Proof.Machine.execDatChk512 s
  | .datChk256 h => Sys2Proof.Machine.execDatChk256 h s
  | .xcvTx base len => Sys2Proof.Machine.execXcvTx base len s
  | .xcvRb base len => Sys2Proof.Machine.execXcvRb base len s
  | .frmSlot512 d => Sys2Proof.Machine.execFrmSlot512 d s
  | .frmSlot256 d => Sys2Proof.Machine.execFrmSlot256 d s
  | .stpEdge f => Sys2Proof.Machine.execStpEdge f s
  | .posTake => Sys2Proof.Machine.execPosTake s
  | .posApply d delta => Sys2Proof.Machine.execPosApply d delta s
  | .selChg l => Sys2Proof.Machine.execSelChg l s
  | .seqEnter d => Sys2Proof.Machine.execSeqEnter d s
  | .seqChk d => Sys2Proof.Machine.execSeqChk d s
  | .seqSide d => Sys2Proof.Machine.execSeqSide d s
  | .seqPos d => Sys2Proof.Machine.execSeqPos d s
  | .seqLba d => Sys2Proof.Machine.execSeqLba d s
  | .seqFetch d => Sys2Proof.Machine.execSeqFetch d s
  | .seqXfer d => Sys2Proof.Machine.execSeqXfer d s
  | .seqNext d => Sys2Proof.Machine.execSeqNext d s
  | .seqExit d => Sys2Proof.Machine.execSeqExit d s
  | .seqDisp d => Sys2Proof.Machine.execSeqDisp d s
  | .secRd d => Sys2Proof.Machine.execSecRd d s
  | .secWr d => Sys2Proof.Machine.execSecWr d s
  | .imgLoad d numTrack numSec startSector ro ok => Sys2Proof.Machine.execImgLoad d numTrack numSec startSector ro ok s
  | .imgEject d => Sys2Proof.Machine.execImgEject d s
  | .imgRdy d => Sys2Proof.Machine.execImgRdy d s
  | .imgRo d => Sys2Proof.Machine.execImgRo d s
  | .imgChg d => Sys2Proof.Machine.execImgChg d s
  | .imgClrchg d => Sys2Proof.Machine.execImgClrchg d s
  | .drvLoad d numTrack numSec startSector ro ok => Sys2Proof.Machine.execDrvLoad d numTrack numSec startSector ro ok s
  | .drvEject d => Sys2Proof.Machine.execDrvEject d s
  | .sysReset => Sys2Proof.Machine.execSysReset s
  | .frameId t h sec n crc => Sys2Proof.Machine.execFrameId t h sec n crc s
  | .frameData512 payload crc => Sys2Proof.Machine.execFrameData512 payload crc s
  | .frameData256 payload crc => Sys2Proof.Machine.execFrameData256 payload crc s

end Sys2Proof.Machine
end

