-- ==== Sys2Proof/Machine/MainLoop.lean ====
section
/-!
DEFINITION. What happens next (spec/43_sync.md R199, spec/20_memory.md R79, spec/60_exceptions.md R271, R314): the next event of the
trace, the environment lines of R106, the busy-wait, and the main loop's own next operation.
-/

namespace Sys2Proof.Machine

/-! ## The environment lines (R106) -/

/-- The level an environment line gives. -/
def levelOf (v : Bool) : Level := Level.assertedWhen v

/-- `ENV.VDISK d, v` (R106): admitted only while drive d is Deselected (D24). -/
def setVdisk (d : DriveId) (v : Bool) (s : State) : Outcome State :=
  onDrive d s <|
    if (s.drv d).step = .idle then
      .next { s with inp := { s.inp with vdisk0 := d.pick v s.inp.vdisk0, vdisk1 := d.pick s.inp.vdisk1 v } }
    else .refused .vdiskWhileSelected

/-- One event of a trace: an operation, or a change of an input. "Reads of input lines have no side effect" (R73), and a change of a
level that raises no event changes only the level (R266). -/
def runItem (item : TraceItem) (s : State) : Outcome State :=
  match item with
  | .op i => exec i s
  | .envSide v => .next { s with inp := { s.inp with side := levelOf v } }
  | .envWgate v => .next { s with inp := { s.inp with writeGate := levelOf v } }
  | .envVdisk d v => setVdisk d v s
  | .envDir v => .next { s with inp := { s.inp with stepDir := levelOf v } }

/-! ## The main loop -/

/-- The operation of a sequencer position (R199); none at IDLE. -/
def SeqStep.operation (t : SeqStep) (d : DriveId) : Option Instr :=
  match t with
  | .idle => none
  | .enter => some (.seqEnter d)
  | .chk => some (.seqChk d)
  | .side => some (.seqSide d)
  | .pos => some (.seqPos d)
  | .lba => some (.seqLba d)
  | .fetch => some (.seqFetch d)
  | .xfer => some (.seqXfer d)
  | .next => some (.seqNext d)
  | .exit => some (.seqExit d)

/-- What the main loop does next when no event is given (R83: "The sequence of operations is wired, not stored"): the operation at the
position of the Selected drive; with every drive Deselected, the transition of the drive the selector names (R194); else nothing. -/
def State.mainLoopNext (s : State) : Option Instr :=
  match s.drv0.step.operation .drive0 with
  | some i => some i
  | none =>
    match s.drv1.step.operation .drive1 with
    | some i => some i
    | none =>
      if s.selected .drive0 then some (.seqDisp .drive0)
      else if s.selected .drive1 then some (.seqDisp .drive1)
      else none

/-- An event that needs the main loop: it cannot happen while the main loop is in a busy-wait (R314). Handlers, the environment and
reset go on. -/
def needsMainLoop (item : TraceItem) : Bool :=
  match item with
  | .op i => i.context == some .mainLoop
  | _ => false

/-- The next event of the trace, on the state without it. A line that is no event is refused (R105). -/
def runLine (line : List Byte) (rest : List (List Byte)) (s : State) : Outcome State :=
  match decodeLine line with
  | .ok item => runItem item { s with trace := rest }
  | .error why => .refused (.undecodable why)

/-- One step while the main loop is not in a busy-wait: the next event of the trace; with no event given, the main loop's own next
operation; with nothing to do, the block is idle (R281). -/
def runFree (s : State) : Outcome State :=
  match s.trace with
  | line :: rest => runLine line rest s
  | [] =>
    match s.mainLoopNext with
    | some i => exec i s
    | none => .next s

/-- One step while WRITE_GATE holds the main loop in a busy-wait: "no main-loop step enabled", "handlers keep running and keep updating
the shared state" (R314). A main-loop operation at the head of the trace is stuck behind it. -/
def runStuck (s : State) : Outcome State :=
  match s.trace with
  | [] => .next s
  | line :: rest =>
    match decodeLine line with
    | .ok item => if needsMainLoop item then .next s else runItem item { s with trace := rest }
    | .error why => .refused (.undecodable why)

/-- One step: a pending busy-wait goes on as soon as WRITE_GATE is released, and holds the main loop until then (R155, R314). -/
def runStep (s : State) : Outcome State :=
  match s.busyWait with
  | some i => if s.inp.writeGate = .asserted then runStuck s else exec i { s with busyWait := none }
  | none => runFree s

/-- An opcode-table word as the next event: its line at the head of the trace, and no busy-wait before it. -/
def placeLine (s : State) (nbits w : Nat) : State :=
  { s with trace := tableLine nbits w :: s.trace, busyWait := none }

/-! ## The pseudo-operations of R107 -/

/-- `SEQ.SLOT d` after its `SEQ.FETCH` (R107): `SEQ.XFER` unless R204 skips it, then `SEQ.NEXT`; a slot whose readback waits ends
there. -/
def slotTail (d : DriveId) (s : State) : Outcome State :=
  andThen (if (s.drv d).step = .xfer then exec (.seqXfer d) s else .next s) fun t =>
    if t.busyWait.isSome then .next t else exec (.seqNext d) t

/-- `SEQ.SLOT d` (R107): one sector slot, cut short after `SEQ.CHK` when it goes to EXIT. While the main loop is in a busy-wait it does not
begin: "no main-loop step enabled" (R314); once the wait is over the main loop goes on in its wired order (R199). -/
def execSlot (d : DriveId) (s : State) : Outcome State :=
  if s.busyWait.isSome then .next s
  else andThen (exec (.seqChk d) s) fun t =>
    if (t.drv d).step = .exit then .next t
    else andThen (exec (.seqSide d) t) fun t => andThen (exec (.seqPos d) t) fun t =>
      andThen (exec (.seqLba d) t) fun t => andThen (exec (.seqFetch d) t) (slotTail d)

/-- `n` times `SEQ.SLOT d`. -/
def execSlots (d : DriveId) : Nat → State → Outcome State
  | 0, s => .next s
  | n + 1, s => andThen (execSlot d s) (execSlots d n)

/-- `SEQ.REV d` (R107): `numSec` times `SEQ.SLOT d`, one revolution; a readback that waits ends it in the slot where it waits. -/
def execRevolution (d : DriveId) (s : State) : Outcome State := execSlots d (s.drv d).img.numSec.toNat s

end Sys2Proof.Machine
end

