-- ==== Sys2Proof/Machine/Step.lean ====
section
/-!
DEFINITION. One step of the block, and an opcode-table word as its next event.
-/

namespace Sys2Proof.Machine

/-- One step. -/
def step (s : State) : Host.Outcome State Fault Refusal := runStep s

/-- `s` with the operation whose bits are `w` as the event the next step runs: there is no program counter and no stored program
(R2, R27), so the line is put at the head of the events still to come (assumption log 7; the numbering of `w`: log 29). -/
def State.withFetchWord (s : State) (nbits w : Nat) : State := placeLine s nbits w

end Sys2Proof.Machine
end

