-- ==== Sys2Proof/Safety.lean ====
section
/-!
DEFINITION. What the claims call a good state and a run in order: the canonical form of the memories, the invariants of rule R44
(spec/10_state.md), and the wired order of rule R199 (spec/43_sync.md).
-/

namespace Sys2Proof.Machine

/-- The operations that can wait for WRITE_GATE: the readback and what contains it (R155, R205). -/
def waitsOnGate (i : Instr) : Bool :=
  match i with
  | .xcvRb _ _ => true
  | .frmSlot512 _ => true
  | .frmSlot256 _ => true
  | .seqXfer _ => true
  | _ => false

/-- A memory is in canonical form and lists no address from `size` on. -/
def Memory.fits (m : Memory) (size : Nat) : Prop := m.wf ∧ ∀ c ∈ m, c.1 < size

/-- The data invariant: the three memories are canonical and inside their address spaces (R61 to R63), the flag and the delta agree as
rule R44 says, and only an operation with a readback is ever waited for (R314). -/
structure State.wf (s : State) : Prop where
  buf : s.buf.fits bufLen
  pstore : s.pstore.fits (slotSize * 2 ^ 32)
  vstore : s.vstore.fits (slotSize * 2 ^ 32)
  flagCoversDelta : s.trackChangedFlag = false → s.pendingTrackDelta = 0#16
  waiting : ∀ i, s.busyWait = some i → waitsOnGate i = true

/-- The sequencer position at which rule R199 puts an operation: none for the operations that are no step of the loop. -/
def Instr.position (i : Instr) : Option (DriveId × SeqStep) :=
  match i with
  | .seqEnter d => some (d, .enter)
  | .seqChk d => some (d, .chk)
  | .seqSide d => some (d, .side)
  | .seqPos d => some (d, .pos)
  | .seqLba d => some (d, .lba)
  | .seqFetch d => some (d, .fetch)
  | .seqXfer d => some (d, .xfer)
  | .seqNext d => some (d, .next)
  | .seqExit d => some (d, .exit)
  | _ => none

/-- The operation is the one the main loop is at (R199), or is no step of the loop. -/
def inOrder (i : Instr) (s : State) : Prop :=
  ∀ d t, Instr.position i = some (d, t) → (s.drv d).step = t

/-- A drive that is inside the loop, past its entry actions: from here on R44's bound on `sector` holds whatever was loaded before the session
(assumption log 27); `State.sectorsInRange` is that bound at every step, ENTER included. -/
def Drive.inLoop (x : Drive) : Prop := x.step ≠ .idle ∧ x.step ≠ .enter

/-- The session invariant of rule R44: at most one drive is Selected, only a drive the topology has is, and a drive inside the loop has
legal geometry and a sector index below `numSec`; a waited-for step 6 is the one the sequencer stands at. -/
structure State.session (s : State) : Prop where
  oneSelected : s.drv0.step = .idle ∨ s.drv1.step = .idle
  present : ∀ d, (s.drv d).step ≠ .idle → s.params.hasDrive d = true
  geometry : ∀ d, (s.drv d).inLoop →
    (s.drv d).img.geometryLoaded = true ∧ geometryLegal (s.params.half d) (s.drv d).img = true
      ∧ (s.drv d).sector.toNat < (s.drv d).img.numSec.toNat
  waitInOrder : ∀ i, s.busyWait = some i → inOrder i s

/-- R44's bound for a drive at whatever step it stands, ENTER and IDLE included: with geometry the loop may use (R211), `sector < numSec`. -/
def Drive.sectorInRange (half : Bool) (x : Drive) : Prop :=
  x.img.geometryLoaded = true → geometryLegal half x.img = true → x.sector.toNat < x.img.numSec.toNat

/-- `0 <= drv[d].sector < numSec` for every drive with valid geometry (R44). -/
def State.sectorsInRange (s : State) : Prop := ∀ d, (s.drv d).sectorInRange (s.params.half d)

/-- The operation is no successful load of a geometry whose tracks end at or before the drive's `sector`: a load "does *not* reset or re-clamp"
it (R246), so such a load opens a window that the next `SEQ.ENTER` (R197) or `DRV.EJECT` (R247) closes (DEDUCED, assumption log 27). -/
def loadCoversSector (i : Instr) (s : State) : Prop :=
  ∀ d nt ns st ro, i = .imgLoad d nt ns st ro true ∨ i = .drvLoad d nt ns st ro true → ns = 0#8 ∨ (s.drv d).sector.toNat < ns.toNat

/-- The operation that the next step runs, if it runs one. -/
def State.nextOperation (s : State) : Option Instr :=
  match s.busyWait with
  | some i =>
    if s.inp.writeGate = .asserted then
      match s.trace with
      | line :: _ =>
        match decodeLine line with
        | .ok (.op j) => if needsMainLoop (.op j) then none else some j
        | _ => none
      | [] => none
    else some i
  | none =>
    match s.trace with
    | line :: _ =>
      match decodeLine line with
      | .ok (.op j) => some j
      | _ => none
    | [] => s.mainLoopNext

/-! ## What the statements about a transfer name -/

/-- The answer that the collaborator call after `n` others gets (R12). -/
def State.answerAfter (s : State) (n : Nat) : Answer := ({ s with answers := s.answers.drop n, draws := s.draws + n } : State).answer

/-- The record that a report about the drive's sector, or with `h = 1` about the one after it, appends (R263). -/
def State.record (s : State) (d : DriveId) (h : Nat) (code : Status) (st : Nat) : Report :=
  { code := code, d := d, track := (s.drv d).track, side := (s.drv d).side, sec := (s.drv d).sector.toNat + h,
    lba := (s.drv d).lba.toNat + h, st := st }

/-- An ID field with its CRC: track and side of the drive, sector number `sector + k`, length code `n` (R91, R95 to R98). -/
def State.idFieldOf (s : State) (d : DriveId) (k : Nat) (n : Byte) : List Byte :=
  let x := s.drv d
  let sec : Byte := BitVec.ofNat 8 (x.sector.toNat + k)
  encode (.frameId (lo8 x.track) (x.side.setWidth 8) sec n
    (crcBytes s.params.crcPoly s.params.crcInit [0xFE#8, lo8 x.track, x.side.setWidth 8, sec, n]))

/-- What a full slot transmits (R147, R94): the ID field and the data field of the payload `BUF[9..520]`. -/
def State.fullFrames (s : State) (d : DriveId) : List Byte :=
  s.idFieldOf d 1 2#8 ++
    encode (.frameData512 (s.bufRange 9 512) (crcBytes s.params.crcPoly s.params.crcInit (0xFB#8 :: s.bufRange 9 512)))

/-- What half `h` of a pair transmits (R150, R94): the ID field of sector number `sector + 1 + h` and the data field of its 256 bytes. -/
def State.halfFrames (s : State) (d : DriveId) (h : Nat) : List Byte :=
  let payload := s.bufRange (9 + 256 * h) 256
  s.idFieldOf d (1 + h) 1#8 ++ encode (.frameData256 payload (crcBytes s.params.crcPoly s.params.crcInit (0xFB#8 :: payload)))

/-- What `HALF.WR d, h` on `r` ends with (R156), where its target is not one the model refuses: status `st` and state `u`. The half's data is a
mismatch, or there is no medium and nothing happens, or its 256 bytes go into its half of the slot (a failed write leaves the slot free, U6).
`off` is what its reports add to `sector` and `lba`. -/
def State.halfWritten (r u : State) (d : DriveId) (h off : Nat) (st : Status) : Prop :=
  let c := crcBytes r.params.crcPoly r.params.crcInit (r.bufRange (8 + 256 * h) 257)
  let passes := r.bufByte (265 + 256 * h) = hi8 c ∧ r.bufByte (266 + 256 * h) = lo8 c
  (¬ passes → st = .crcMismatch ∧ u = { r with crc := c, reports := r.reports ++ [r.record d off .crcMismatch 0] }) ∧
  (passes → r.resolve true d = .noMedia → st = .ok ∧ u = { r with crc := c }) ∧
  (passes → ∀ idx, r.resolve true d = .physical idx →
    u = { r with crc := c, pstore := u.pstore, reports := u.reports, calls := r.calls ++ [.halfWrite idx h], answers := r.answers.tail,
                 draws := r.draws + 1 } ∧
    (∀ a, a < 512 * idx ∨ 512 * idx + 512 ≤ a → u.storeByte .pstore a = r.storeByte .pstore a) ∧
    (r.answer.st = 0 → st = .ok ∧ u.reports = r.reports ∧
      (∀ k, k < 256 → u.storeByte .pstore (512 * idx + 256 * h + k) = r.bufByte (9 + 256 * h + k)) ∧
      ∀ a, a < 512 * idx + 256 * h ∨ 512 * idx + 256 * h + 256 ≤ a → u.storeByte .pstore a = r.storeByte .pstore a) ∧
    (r.answer.st ≠ 0 → st = .storageWriteError ∧ u.reports = r.reports ++ [r.record d off .storageWriteError r.answer.st]))

/-- What half `h` of a pair ends with once it is read back into `r` with verdict `ok` (R150): a failed readback is the one report, else
`HALF.WR`. The reports of half `h` are about `sector + h` and `lba + h` (R263). -/
def State.halfVerified (r u : State) (d : DriveId) (h : Nat) (ok : Bool) (st : Status) : Prop :=
  (ok = false → st = .transceiverReadback ∧ u = { r with reports := r.reports ++ [r.record d h .transceiverReadback 0] }) ∧
  (ok = true → r.halfWritten u d h h st)

/-- Every byte of `BUF` outside the given offsets reads as before. -/
def bufSameOutside (s t : State) (touched : Nat → Prop) : Prop := ∀ a, ¬ touched a → t.bufByte a = s.bufByte a

end Sys2Proof.Machine
end

