-- ==== Sys2Proof/Certificates/Slice0/Obligations.lean ====
section
/-!
DEFINITION. The statements for the provers. Each docstring names the rules of spec/ it formalises. `result` is the model's own field
(assumption log 5); a clause about it says what the operation returns.
-/

open Sys2Proof Sys2Proof.Machine

/-! ## The CRC generator (spec/40_crc.md) -/

/-- R120: `CRC.RST` loads the preset and changes nothing else; the preset of decision D2. -/
def Obligations.CrcResetLoadsPreset : Prop :=
  encode .crcRst = [0x00#8] ∧ Params.standard.crcInit = 0xCDB4#16 ∧
  ∀ s : State, exec .crcRst s = .next { s with crc := s.params.crcInit, result := .status .ok }

/-- R121: `CRC.BIT b` gives every bit of the new register: bit k is the old bit k-1 (0 for k = 0), exclusive-or bit k of the polynomial
when `crc[15] xor b`. -/
def Obligations.CrcBitShiftsOneBit : Prop :=
  ∀ (s : State) (b : Byte), ∃ c : Word16,
    exec (.crcBit b) s = .next { s with crc := c, result := .status .ok } ∧
    ∀ k, k < 16 → c.getLsbD k =
      ((decide (0 < k) && s.crc.getLsbD (k - 1)) ^^ ((s.crc.getLsbD 15 ^^ b.getLsbD 0) && s.params.crcPoly.getLsbD k))

/-- R122: `CRC.BYTE x` is `CRC.BIT x[i]` for i = 7 downto 0; and for `CRC_POLY = 0x1021` it is the closed form. -/
def Obligations.CrcByteIsEightShifts : Prop :=
  ∀ (s : State) (x : Byte), ∃ t : State, exec (.crcByte x) s = .next t ∧
    [7, 6, 5, 4, 3, 2, 1, 0].foldl (fun (o : Outcome State) (i : Nat) => andThen o (exec (.crcBit (x >>> i)))) (.next s)
      = .next t ∧
    t = { s with crc := t.crc, result := .status .ok } ∧
    (s.params.crcPoly = 0x1021#16 →
      let t0 : Byte := hi8 s.crc ^^^ x
      let t1 : Byte := t0 ^^^ (t0 >>> 4)
      let w : Word16 := t1.setWidth 16
      t.crc = (s.crc <<< 8) ^^^ (w <<< 12) ^^^ (w <<< 5) ^^^ w)

/-- R123: `CRC.BLK off, len` starts from the preset, takes the bytes from `off` on in order, and returns the register; a range outside
`BUF` is refused. -/
def Obligations.CrcBlockCoversItsRange : Prop :=
  ∀ (s : State) (off len : Word16),
    (off.toNat + len.toNat ≤ 536 →
      let c := (List.range len.toNat).foldl (fun c k => crcByte s.params.crcPoly c (s.bufByte (off.toNat + k))) s.params.crcInit
      exec (.crcBlk off len) s = .next { s with crc := c, result := .crc c }) ∧
    (536 < off.toNat + len.toNat → exec (.crcBlk off len) s = .refused .bufferRange)

/-- R124 and R125: `CRC.PUT off` stores the register high byte first and no other byte; `CRC.CMP off` answers whether the two bytes are
the register; after the one, the other answers true. Two bytes outside `BUF` are refused (U16). -/
def Obligations.CrcPutAndCompare : Prop :=
  ∀ (s : State) (off : Word16),
    (off.toNat + 2 ≤ 536 →
      (∃ t : State, exec (.crcPut off) s = .next t ∧
        t.bufByte off.toNat = hi8 s.crc ∧ t.bufByte (off.toNat + 1) = lo8 s.crc ∧
        bufSameOutside s t (fun a => a = off.toNat ∨ a = off.toNat + 1) ∧
        t = { s with buf := t.buf, result := .status .ok } ∧
        exec (.crcCmp off) t = .next { t with result := .bool true }) ∧
      exec (.crcCmp off) s
        = .next { s with result := .bool (decide (s.bufByte off.toNat = hi8 s.crc ∧ s.bufByte (off.toNat + 1) = lo8 s.crc)) }) ∧
    (536 < off.toNat + 2 → exec (.crcPut off) s = .refused .bufferRange ∧ exec (.crcCmp off) s = .refused .bufferRange)

/-- R126 (b), (d): zero residue, for every polynomial and preset; and the preset `0xCDB4` is the preset `0xFFFF` after `A1 A1 A1`. -/
def Obligations.CrcZeroResidueAndPreset : Prop :=
  (∀ (poly init : Word16) (m : List Byte),
    crcBytes poly init (m ++ [hi8 (crcBytes poly init m), lo8 (crcBytes poly init m)]) = 0#16) ∧
  ∀ m : List Byte, crcBytes 0x1021#16 0xCDB4#16 m = crcBytes 0x1021#16 0xFFFF#16 ([0xA1#8, 0xA1#8, 0xA1#8] ++ m)

/-- R126 (c): two byte strings of equal length that differ in exactly one bit have different CRCs, for every polynomial whose constant
term is 1 (that of D1 has). -/
def Obligations.CrcDetectsEverySingleBit : Prop :=
  ∀ (poly init : Word16) (m : List Byte) (k j : Nat) (h : k < m.length), poly.getLsbD 0 = true → j < 8 →
    crcBytes poly init (m.set k (m[k] ^^^ (1#8 <<< j))) ≠ crcBytes poly init m

/-! ## The framer and the checkers (spec/41_framer.md) -/

/-- R140, R91: `FRM.HDR` leaves the ID field of its operands at `base`, its CRC over the five bytes in the register, and every other
byte as it was. With `base` 529 the gap byte has no place in `BUF` and is not written (the model's choice, assumption log 28). A mark, fields and CRC
that do not lie in `BUF` are refused, as the CRC operations it runs are (R123, U16). -/
def Obligations.HeaderIsTheIdField : Prop :=
  ∀ (s : State) (base : Word16) (t h sec n : Byte),
    (base.toNat + 7 ≤ 536 → ∃ u : State, exec (.frmHdr base t h sec n) s = .next u ∧
      u.crc = crcBytes s.params.crcPoly s.params.crcInit [0xFE#8, t, h, sec, n] ∧
      (base.toNat + 8 ≤ 536 → u.bufRange base.toNat 8 = encode (.frameId t h sec n u.crc)) ∧
      (base.toNat = 529 → u.bufRange 529 7 = [0xFE#8, t, h, sec, n, hi8 u.crc, lo8 u.crc]) ∧
      bufSameOutside s u (fun a => base.toNat ≤ a ∧ a < base.toNat + 8 ∧ a < 536) ∧
      u = { s with buf := u.buf, crc := u.crc, result := .status .ok }) ∧
    (536 < base.toNat + 7 → exec (.frmHdr base t h sec n) s = .refused .bufferRange)

/-- R141, R92: `FRM.DAT512` leaves the data field of the 512 payload bytes at 8 and every other byte as it was. -/
def Obligations.FullDataField : Prop :=
  ∀ s : State, ∃ u : State, exec .frmDat512 s = .next u ∧
    u.crc = crcBytes s.params.crcPoly s.params.crcInit (0xFB#8 :: s.bufRange 9 512) ∧
    u.bufRange 8 516 = encode (.frameData512 (s.bufRange 9 512) u.crc) ∧
    bufSameOutside s u (fun a => a = 8 ∨ (521 ≤ a ∧ a < 524)) ∧
    u = { s with buf := u.buf, crc := u.crc, result := .status .ok }

/-- R142, R93: `FRM.DAT256A` leaves the first half's data field at 8, the three bytes its trailer covers in `SCR3`, and every other
byte as it was. -/
def Obligations.FirstHalfDataField : Prop :=
  ∀ s : State, ∃ u : State, exec .frmDat256A s = .next u ∧
    u.crc = crcBytes s.params.crcPoly s.params.crcInit (0xFB#8 :: s.bufRange 9 256) ∧
    u.bufRange 8 260 = encode (.frameData256 (s.bufRange 9 256) u.crc) ∧
    u.bufRange 524 3 = s.bufRange 265 3 ∧
    bufSameOutside s u (fun a => a = 8 ∨ (265 ≤ a ∧ a < 268) ∨ (524 ≤ a ∧ a < 527)) ∧
    u = { s with buf := u.buf, crc := u.crc, result := .status .ok }

/-- R143, R93, R97: `FRM.DAT256B` leaves the second half's ID field (track, side and sector number `sector + 2` of the running drive, length
code 1) and data field from 256 on, the nine bytes they cover in `SCR9`, and every other byte as it was. The running drive is the Selected
one; with none Selected it is some drive of the topology, a free value that takes a draw (the model's choice, assumption log 8). -/
def Obligations.SecondHalfDataField : Prop :=
  ∀ s : State, ∃ (u : State) (d : DriveId), exec .frmDat256B s = .next u ∧
    (s.drv0.step ≠ .idle → d = .drive0) ∧ (s.drv0.step = .idle → s.drv1.step ≠ .idle → d = .drive1) ∧
    (s.drv0.step = .idle → s.drv1.step = .idle → s.params.hasDrive d = true) ∧
    (let x := s.drv d
     let hc := crcBytes s.params.crcPoly s.params.crcInit [0xFE#8, lo8 x.track, x.side.setWidth 8, BitVec.ofNat 8 (x.sector.toNat + 2), 1#8]
     u.bufRange 256 8 = encode (.frameId (lo8 x.track) (x.side.setWidth 8) (BitVec.ofNat 8 (x.sector.toNat + 2)) 1#8 hc)) ∧
    u.crc = crcBytes s.params.crcPoly s.params.crcInit (0xFB#8 :: s.bufRange 265 256) ∧
    u.bufRange 264 260 = encode (.frameData256 (s.bufRange 265 256) u.crc) ∧
    u.bufRange 527 9 = s.bufRange 256 9 ∧
    bufSameOutside s u (fun a => (256 ≤ a ∧ a < 265) ∨ (521 ≤ a ∧ a < 524) ∨ (527 ≤ a ∧ a < 536)) ∧
    u = { s with buf := u.buf, crc := u.crc, result := .status .ok, draws := u.draws } ∧
    (s.drv0.step ≠ .idle ∨ s.drv1.step ≠ .idle → u.draws = s.draws)

/-- R144: for all `T, H, S` and `N` in {1, 2}, `FRM.HDR base` followed by `HDR.CHK base` returns the fields and leaves the buffer. -/
def Obligations.HeaderRoundTrip : Prop :=
  ∀ (s : State) (base : Word16) (t h sec n : Byte), base.toNat + 8 ≤ 536 → (n = 1#8 ∨ n = 2#8) →
    ∃ u v : State, exec (.frmHdr base t h sec n) s = .next u ∧ exec (.hdrChk base) u = .next v ∧
      v.result = .header t h sec n ∧ v.buf = u.buf

/-- R144: what `HDR.CHK base` returns, and that it changes the register at most. Another first byte than `0xFE` gives `HdrBad` with no CRC operation
reached, wherever it stands in `BUF`; with `0xFE` the five bytes' CRC and the two bytes after them decide, then the length code, and the gap byte
does not; where these seven bytes do not lie in `BUF` the CRC operations are refused (R123, U16). With a `base` outside `BUF` the first byte is a free
value that takes a draw: `HdrBad`, or were it `0xFE`, that refusal (the model's choice, assumption log 28). -/
def Obligations.HeaderCheckVerdict : Prop :=
  ∀ (s : State) (base : Word16),
    let b := base.toNat
    let c := crcBytes s.params.crcPoly s.params.crcInit (s.bufRange b 5)
    (b < 536 → s.bufByte b ≠ 0xFE#8 → exec (.hdrChk base) s = .next { s with result := .status .hdrBad }) ∧
    (b + 7 ≤ 536 → s.bufByte b = 0xFE#8 → ∃ u : State, exec (.hdrChk base) s = .next u ∧
      u = { s with crc := c, result := u.result } ∧
      (s.bufByte (b + 5) = hi8 c ∧ s.bufByte (b + 6) = lo8 c ∧ (s.bufByte (b + 4) = 1#8 ∨ s.bufByte (b + 4) = 2#8) →
        u.result = .header (s.bufByte (b + 1)) (s.bufByte (b + 2)) (s.bufByte (b + 3)) (s.bufByte (b + 4))) ∧
      (¬ (s.bufByte (b + 5) = hi8 c ∧ s.bufByte (b + 6) = lo8 c ∧ (s.bufByte (b + 4) = 1#8 ∨ s.bufByte (b + 4) = 2#8)) →
        u.result = .status .hdrBad)) ∧
    (b < 536 → 536 < b + 7 → s.bufByte b = 0xFE#8 → exec (.hdrChk base) s = .refused .bufferRange) ∧
    (536 ≤ b → exec (.hdrChk base) s = .next { s with result := .status .hdrBad, draws := s.draws + 1 } ∨
      exec (.hdrChk base) s = .refused .bufferRange)

/-- R145, R146: the data checks recompute the CRC over mark and payload, compare it with the two bytes that follow, and change the
register only. R146 gives the half's number as 0 or 1; that an operand from 2 to 255 names the second half as 1 does is the model's choice
(assumption log 20). -/
def Obligations.DataChecksCompareTheTrailer : Prop :=
  ∀ s : State,
    (let c := crcBytes s.params.crcPoly s.params.crcInit (s.bufRange 8 513)
     exec .datChk512 s
       = .next { s with crc := c, result := .bool (decide (s.bufByte 521 = hi8 c ∧ s.bufByte 522 = lo8 c)) }) ∧
    (let c := crcBytes s.params.crcPoly s.params.crcInit (s.bufRange 8 257)
     exec (.datChk256 0#8) s
       = .next { s with crc := c, result := .bool (decide (s.bufByte 265 = hi8 c ∧ s.bufByte 266 = lo8 c)) }) ∧
    ∀ h : Byte, h ≠ 0#8 →
      let c := crcBytes s.params.crcPoly s.params.crcInit (s.bufRange 264 257)
      exec (.datChk256 h) s
        = .next { s with crc := c, result := .bool (decide (s.bufByte 521 = hi8 c ∧ s.bufByte 522 = lo8 c)) }

/-- R154: `XCV.TX base, len` hands the bytes, in order, to the transceiver with the running drive's `bitLength`; `BUF` and everything
else are unchanged. The running drive is the Selected one; with none Selected it is some drive of the topology, a free value that takes a
draw (the model's choice, assumption log 8). A byte of the range that lies outside `BUF` is a free value, which takes a draw too (the model's
choice, assumption log 28). -/
def Obligations.TransmitHandsTheRange : Prop :=
  ∀ (s : State) (base len : Word16), ∃ (d : DriveId) (n : Nat) (bytes : List Byte),
    (s.drv0.step ≠ .idle → d = .drive0) ∧ (s.drv0.step = .idle → s.drv1.step ≠ .idle → d = .drive1) ∧
    (s.drv0.step = .idle → s.drv1.step = .idle → s.params.hasDrive d = true) ∧
    (s.drv0.step ≠ .idle ∨ s.drv1.step ≠ .idle → base.toNat + len.toNat ≤ 536 → n = s.draws) ∧
    bytes.length = len.toNat ∧
    (∀ k, k < len.toNat → base.toNat + k < 536 → bytes[k]? = some (s.bufByte (base.toNat + k))) ∧
    exec (.xcvTx base len) s = .next { s with
      calls := s.calls ++ [.transmit bytes (s.drv d).bitLength], result := .status .ok, draws := n }

/-- R155: with WRITE_GATE released `XCV.RB base, len` takes one oracle answer: its status decides what is returned, the named range holds
what the answer leaves there, and every other byte is unchanged. While WRITE_GATE is asserted it waits and changes nothing else. Of a range that
goes past `BUF` the bytes that exist are drawn (the model's choice, assumption log 28). -/
def Obligations.ReadbackDrawsTheNamedRange : Prop :=
  ∀ (s : State) (base len : Word16),
    (s.inp.writeGate = .released → ∃ u : State, exec (.xcvRb base len) s = .next u ∧
      u.result = .readback (decide (s.answer.st = 0)) ∧
      bufSameOutside s u (fun a => base.toNat ≤ a ∧ a < base.toNat + len.toNat) ∧
      (s.answer.keep = true → u.buf = s.buf) ∧
      (s.answer.keep = false → ∀ k, k < len.toNat → base.toNat + k < 536 → k < s.answer.bytes.length →
        some (u.bufByte (base.toNat + k)) = s.answer.bytes[k]?) ∧
      u = { s with buf := u.buf, calls := s.calls ++ [.readback base.toNat len.toNat], result := u.result,
                   answers := s.answers.tail, draws := s.draws + 1 }) ∧
    (s.inp.writeGate = .asserted → exec (.xcvRb base len) s = .next { s with busyWait := some (.xcvRb base len) })

/-! ## Step 6 of the slot (spec/41_framer.md) -/

/-- R147, R64, R148, R263: with a supported format and WRITE_GATE released, `FRM.SLOT512` completes, unless it would store data that passed its CRC
test (`slotFullClean`: the readback answered OK and the data read back matches its trailer) to a target the model refuses (U3, U8): then it
is refused as a whole (the model's choice, assumption log 25). It transmits the ID field and the data field of the payload (`fullFrames`) and reads
back; it writes `BUF[0..523]`, the register, the drive's own slot of one store, at most one report and the calls, and nothing else. A report is about
the drive's sector and block; a failed readback is the one report `TransceiverReadbackError`, and no store is called.
R147's last line holds for every readback: what `FRM.SLOT512 d` answers is what `SEC.WR d` answers on the state that `XCV.RB 8, 516` leaves.
In half-sector mode, where the sequencer never runs it, its write path and its target are the model's reading (assumption log 10). -/
def Obligations.FullSlotCompletes : Prop :=
  ∀ (s : State) (d : DriveId), s.params.hasDrive d = true → s.supported d = true → s.inp.writeGate = .released →
    (∃ v r : State,
      v = { s with buf := v.buf, crc := v.crc, calls := s.calls ++ [.transmit (s.fullFrames d) (s.drv d).bitLength] } ∧
      v.bufRange 0 524 = s.fullFrames d ∧ bufSameOutside s v (fun a => a < 524) ∧
      exec (.xcvRb 8#16 516#16) v = .next { r with result := .readback (decide (s.answer.st = 0)) } ∧
      (s.answer.st = 0 → exec (.frmSlot512 d) s = exec (.secWr d) r) ∧
      (s.answer.st ≠ 0 → exec (.frmSlot512 d) s = .next { r with
        reports := r.reports ++ [s.record d 0 .transceiverReadback 0], result := .status .transceiverReadback })) ∧
    ((∀ r, s.resolve (s.params.half d) d = .stop r → s.slotFullClean d = false) →
      ∃ (u : State) (w : List Call), exec (.frmSlot512 d) s = .next u ∧
        u = { s with buf := u.buf, crc := u.crc, pstore := u.pstore, vstore := u.vstore, reports := u.reports,
                     calls := u.calls, result := u.result, answers := u.answers, draws := u.draws } ∧
        bufSameOutside s u (fun a => a < 524) ∧
        u.calls = s.calls ++ [.transmit (s.fullFrames d) (s.drv d).bitLength, .readback 8 516] ++ w ∧ w.length ≤ 1 ∧
        (s.params.half d = false → ∀ c ∈ w, (∃ idx, s.resolve false d = .physical idx ∧ c = .memWrite .pstore idx) ∨
          ∃ v, s.resolve false d = .virtual v ∧ c = .memWrite .vstore v) ∧
        (∀ idx, s.resolve (s.params.half d) d = .physical idx →
          u.vstore = s.vstore ∧ ∀ a, a < 512 * idx ∨ 512 * idx + 512 ≤ a → u.storeByte .pstore a = s.storeByte .pstore a) ∧
        (∀ v, s.resolve (s.params.half d) d = .virtual v →
          u.pstore = s.pstore ∧ ∀ a, a < 512 * v ∨ 512 * v + 512 ≤ a → u.storeByte .vstore a = s.storeByte .vstore a) ∧
        ((s.resolve (s.params.half d) d = .noMedia ∨ s.slotFullClean d = false) → u.pstore = s.pstore ∧ u.vstore = s.vstore) ∧
        (u.reports = s.reports ∨ ∃ code st, u.reports = s.reports ++ [s.record d 0 code st]) ∧
        (s.answer.st ≠ 0 → w = [] ∧ u.reports = s.reports ++ [s.record d 0 .transceiverReadback 0] ∧
          u.result = .status .transceiverReadback)) ∧
    (∀ r, s.resolve (s.params.half d) d = .stop r → s.slotFullClean d = true → exec (.frmSlot512 d) s = .refused r)

/-- R147 with the loopback oracle, R94, R227: a READY drive in full-sector mode transmits one ID field and one data field of the payload in
`BUF[9..520]`, and the slot `startSector + lba` then holds exactly that payload; nothing is reported and no other store byte changes. -/
def Obligations.FullSlotLoopbackStoresThePayload : Prop :=
  ∀ (s : State) (d : DriveId) (a w : Answer) (rest : List Answer),
    s.params.hasDrive d = true → s.params.half d = false → s.supported d = true → s.inp.writeGate = .released →
    (s.drv d).img.flags.ready = true → (s.drv d).img.startSector.toNat + (s.drv d).lba.toNat < 2 ^ 32 →
    s.answers = a :: w :: rest → a.st = 0 → a.keep = true → w.st = 0 →
    let x := s.drv d
    let idx := x.img.startSector.toNat + x.lba.toNat
    let payload := s.bufRange 9 512
    let hc := crcBytes s.params.crcPoly s.params.crcInit
      [0xFE#8, lo8 x.track, x.side.setWidth 8, BitVec.ofNat 8 (x.sector.toNat + 1), 2#8]
    let dc := crcBytes s.params.crcPoly s.params.crcInit (0xFB#8 :: payload)
    let frames := encode (.frameId (lo8 x.track) (x.side.setWidth 8) (BitVec.ofNat 8 (x.sector.toNat + 1)) 2#8 hc)
      ++ encode (.frameData512 payload dc)
    ∃ u : State, exec (.frmSlot512 d) s = .next u ∧
      u.bufRange 0 524 = frames ∧
      u.calls = s.calls ++ [.transmit frames x.bitLength, .readback 8 516, .memWrite .pstore idx] ∧
      (∀ k, k < 512 → u.storeByte .pstore (512 * idx + k) = s.bufByte (9 + k)) ∧
      (∀ b, b < 512 * idx ∨ 512 * idx + 512 ≤ b → u.storeByte .pstore b = s.storeByte .pstore b) ∧
      u.vstore = s.vstore ∧ u.reports = s.reports ∧ u.answers = rest ∧ u.result = .status .ok

/-- R148, R150: an unsupported format gives one report and nothing else, in both composites; an odd sector index makes `FRM.SLOT256` a
no-op. Neither waits for WRITE_GATE. -/
def Obligations.SlotsThatTransmitNothing : Prop :=
  ∀ (s : State) (d : DriveId), s.params.hasDrive d = true →
    (s.supported d = false →
      let x := s.drv d
      let t : State := { s with
        reports := s.reports ++ [{ code := .unsupportedFormat, d := d, track := x.track, side := x.side,
                                   sec := x.sector.toNat, lba := x.lba.toNat, st := 0 }],
        result := .status .unsupportedFormat }
      exec (.frmSlot512 d) s = .next t ∧ exec (.frmSlot256 d) s = .next t) ∧
    (s.supported d = true → (s.drv d).sector.toNat % 2 = 1 →
      exec (.frmSlot256 d) s = .next { s with result := .status .ok })

/-- R150, R94, R64, R270, R263, R156: with a supported format, an even sector index and WRITE_GATE released, `FRM.SLOT256` completes, unless it would
store a half whose data passed its CRC test (`slotPairClean`: for one of the halves the readback answered OK and the data read back matches its
trailer) to a target the model refuses (U3, U8): then it is refused as a whole (the model's choice, assumption log 25). It goes line by line as R150
does: the first half framed and transmitted (`halfFrames`) and read back; what that half ends with (`halfVerified`: a report, or `HALF.WR` of the data
read back); `BUF[265..267]` restored and the second half framed over it and transmitted, whatever the first ended with; read back; what it ends
with, its reports about `sector + 1` and `lba + 1`; `BUF[256..264]` restored. Where both halves end in an error the first one's is returned (the
model's choice, assumption log 5). -/
def Obligations.HalfPairCompletes : Prop :=
  ∀ (s : State) (d : DriveId), s.params.hasDrive d = true → s.supported d = true → (s.drv d).sector.toNat % 2 = 0 →
    s.inp.writeGate = .released →
    ((∀ r, s.resolve true d = .stop r → s.slotPairClean d = false) →
      ∃ (v0 r0 u0 v1 r1 u1 u : State) (st0 st1 : Status) (ok0 ok1 : Bool), exec (.frmSlot256 d) s = .next u ∧
        v0 = { s with buf := v0.buf, crc := v0.crc, calls := s.calls ++ [.transmit (s.halfFrames d 0) (s.drv d).bitLength] } ∧
        v0.bufRange 0 268 = s.halfFrames d 0 ∧ v0.bufRange 524 3 = s.bufRange 265 3 ∧
        bufSameOutside s v0 (fun a => a < 9 ∨ (265 ≤ a ∧ a < 268) ∨ (524 ≤ a ∧ a < 527)) ∧
        exec (.xcvRb 8#16 260#16) v0 = .next { r0 with result := .readback ok0 } ∧ r0.halfVerified u0 d 0 ok0 st0 ∧
        v1 = { u0 with buf := v1.buf, crc := v1.crc, calls := u0.calls ++ [.transmit (s.halfFrames d 1) (s.drv d).bitLength] } ∧
        v1.bufRange 256 268 = s.halfFrames d 1 ∧ v1.bufRange 527 9 = u0.bufRange 256 9 ∧
        bufSameOutside u0 v1 (fun a => (256 ≤ a ∧ a < 268) ∨ (521 ≤ a ∧ a < 524) ∨ (527 ≤ a ∧ a < 536)) ∧
        exec (.xcvRb 264#16 260#16) v1 = .next { r1 with result := .readback ok1 } ∧ r1.halfVerified u1 d 1 ok1 st1 ∧
        u = { u1 with buf := u.buf, result := .status (if st0 = .ok then st1 else st0) } ∧
        u.bufRange 256 9 = v1.bufRange 527 9 ∧ bufSameOutside u1 u (fun a => 256 ≤ a ∧ a < 265) ∧
        (∀ idx, s.resolve true d = .physical idx →
          ∀ a, a < 512 * idx ∨ 512 * idx + 512 ≤ a → u.storeByte .pstore a = s.storeByte .pstore a) ∧
        ((∀ idx, s.resolve true d ≠ .physical idx) → u.pstore = s.pstore)) ∧
    (∀ r, s.resolve true d = .stop r → s.slotPairClean d = true → exec (.frmSlot256 d) s = .refused r)

/-- R158, R150, R94: with both readbacks leaving the buffer unchanged, whatever they and the half writes answer and with a medium or without, `FRM.SLOT256`
on an even sector index leaves `D_PAY[0..511]` as it was and changes `BUF[0..8]`, `BUF[521..523]` and the scratch area only. On a READY drive with
both readbacks answering OK it transmits and reads back each half and writes it, in this order, and no more; with both writes succeeding the slot holds
the payload, no other byte of it changes, and nothing is reported. -/
def Obligations.HalfPairSpliceIsIdempotent : Prop :=
  ∀ (s : State) (d : DriveId), s.params.hasDrive d = true → s.supported d = true → (s.drv d).sector.toNat % 2 = 0 →
    s.inp.writeGate = .released →
    let f0 : Call := .transmit (s.halfFrames d 0) (s.drv d).bitLength
    let f1 : Call := .transmit (s.halfFrames d 1) (s.drv d).bitLength
    ((∀ r, s.resolve true d = .stop r → s.slotPairClean d = false) → s.answer.keep = true →
      ∃ (u : State) (w0 w1 : List Call), exec (.frmSlot256 d) s = .next u ∧
        u.calls = s.calls ++ [f0, .readback 8 260] ++ w0 ++ [f1, .readback 264 260] ++ w1 ∧ w0.length ≤ 1 ∧
        ((s.resolve true d = .noMedia ∨ s.answer.st ≠ 0) → w0 = []) ∧
        ((s.answerAfter (1 + w0.length)).keep = true →
          u.bufRange 9 512 = s.bufRange 9 512 ∧ bufSameOutside s u (fun k => k ≤ 8 ∨ (521 ≤ k ∧ k ≤ 535)))) ∧
    (∀ (a b p q : Answer) (rest : List Answer), let idx := (s.drv d).img.startSector.toNat + (s.drv d).lba.toNat / 2
      (s.drv d).img.flags.ready = true → idx < 2 ^ 32 →
      s.answers = a :: p :: b :: q :: rest → a.st = 0 → a.keep = true → b.st = 0 → b.keep = true →
      ∃ u : State, exec (.frmSlot256 d) s = .next u ∧
        u.bufRange 9 512 = s.bufRange 9 512 ∧
        bufSameOutside s u (fun k => k ≤ 8 ∨ (521 ≤ k ∧ k ≤ 535)) ∧
        u.calls = s.calls ++ [f0, .readback 8 260, .halfWrite idx 0, f1, .readback 264 260, .halfWrite idx 1] ∧
        u.answers = rest ∧
        (p.st = 0 → q.st = 0 →
          (∀ k, k < 512 → u.storeByte .pstore (512 * idx + k) = s.bufByte (9 + k)) ∧
          (∀ k, k < 512 * idx ∨ 512 * idx + 512 ≤ k → u.storeByte .pstore k = s.storeByte .pstore k) ∧
          u.reports = s.reports ∧ u.result = .status .ok))

/-! ## The position state machine (spec/42_position.md) -/

/-- R170, R171, R177: a bouncing edge changes nothing; a valid edge adds -1 with STEPDIR asserted and +1 otherwise, sets the flag and changes
nothing else; past either end of the 16-bit range it is the fault. -/
def Obligations.StepEdgeCountsOne : Prop :=
  ∀ (s : State) (f : Byte),
    (f.getLsbD 1 = false → exec (.stpEdge f) s = .next s) ∧
    (f.getLsbD 1 = true → f.getLsbD 0 = false → s.pendingTrackDelta.toInt < 32767 →
      ∃ v : Word16, v.toInt = s.pendingTrackDelta.toInt + 1 ∧
        exec (.stpEdge f) s = .next { s with pendingTrackDelta := v, trackChangedFlag := true }) ∧
    (f.getLsbD 1 = true → f.getLsbD 0 = true → -32768 < s.pendingTrackDelta.toInt →
      ∃ v : Word16, v.toInt = s.pendingTrackDelta.toInt - 1 ∧
        exec (.stpEdge f) s = .next { s with pendingTrackDelta := v, trackChangedFlag := true }) ∧
    (f.getLsbD 1 = true → f.getLsbD 0 = false → s.pendingTrackDelta.toInt = 32767 →
      exec (.stpEdge f) s = .fault .deltaOverflow) ∧
    (f.getLsbD 1 = true → f.getLsbD 0 = true → s.pendingTrackDelta.toInt = -32768 →
      exec (.stpEdge f) s = .fault .deltaOverflow)

/-- R179: after any sequence of edges that raises no fault the delta has grown by the valid edges with STEPDIR released less the valid edges
with STEPDIR asserted, the flag is set if there was a valid edge, and nothing else has changed; and a sequence whose counts cannot leave the
range raises none. -/
def Obligations.NetDelta : Prop :=
  ∀ (s : State) (fs : List Byte),
    let ups := fs.countP fun f => f.getLsbD 1 && !f.getLsbD 0
    let downs := fs.countP fun f => f.getLsbD 1 && f.getLsbD 0
    let run := fs.foldl (fun (o : Outcome State) f => andThen o (exec (.stpEdge f))) (.next s)
    (∀ t, run = .next t →
      t.pendingTrackDelta.toInt = s.pendingTrackDelta.toInt + ups - downs ∧
      t.trackChangedFlag = (s.trackChangedFlag || decide (0 < ups + downs)) ∧
      t = { s with pendingTrackDelta := t.pendingTrackDelta, trackChangedFlag := t.trackChangedFlag }) ∧
    (s.pendingTrackDelta.toInt + ups ≤ 32767 → -32768 ≤ s.pendingTrackDelta.toInt - downs → ∃ t, run = .next t)

/-- R173: `POS.TAKE` with the flag set returns the delta and clears delta and flag; with the flag clear it returns `(false, 0)` and changes
nothing. -/
def Obligations.TakeReadsAndClears : Prop :=
  ∀ s : State,
    (s.trackChangedFlag = true → exec .posTake s = .next { s with
      pendingTrackDelta := 0#16, trackChangedFlag := false, result := .take true s.pendingTrackDelta }) ∧
    (s.trackChangedFlag = false → exec .posTake s = .next { s with result := .take false 0#16 })

/-- R82 and R310: no update is lost. An edge just after a take, or just before it: what the take returned and what is then pending add up to
the delta before both plus the edge's own step (+1 with STEPDIR released, -1 with STEPDIR asserted, 0 for a bouncing edge), in either order. -/
def Obligations.NoStepIsLostAtTheTake : Prop :=
  ∀ (s t u v w : State) (f : Byte) (ft fw : Bool) (a b : Word16),
    exec .posTake s = .next t → t.result = .take ft a → exec (.stpEdge f) t = .next u →
    exec (.stpEdge f) s = .next v → exec .posTake v = .next w → w.result = .take fw b →
    let own : Int := if f.getLsbD 1 = true then (if f.getLsbD 0 = true then -1 else 1) else 0
    a.toInt + u.pendingTrackDelta.toInt = s.pendingTrackDelta.toInt + own ∧
    b.toInt + w.pendingTrackDelta.toInt = s.pendingTrackDelta.toInt + own

/-- R175, R176: `POS.APPLY` moves `track` by the delta, cut to `[0, numTrack-1]`, asserts TRACK0 exactly when the new track is 0, releases
DISK_CHANGE exactly when a medium is present, and changes nothing else. With a `numTrack` outside 1..32767 the new track may be a free value
(assumption log 6); everything else is the same. -/
def Obligations.ApplyClampsTheTrack : Prop :=
  ∀ (s : State) (d : DriveId) (delta : Word16), s.params.hasDrive d = true →
    ∃ (v : Word16) (n : Nat),
      exec (.posApply d delta) s = .next { s.setDrv d { s.drv d with track := v } with
        out := { s.out with track0 := if v = 0#16 then .asserted else .released
                            diskChange := if (s.drv d).img.flags.ready = true ∨ s.vdisk d = true then .released else .asserted }
        result := .status .ok
        draws := n } ∧
      (1 ≤ (s.drv d).img.numTrack.toNat → (s.drv d).img.numTrack.toNat ≤ 32767 → n = s.draws ∧
        v.toInt = max 0 (min ((s.drv d).img.numTrack.toNat - 1 : Int) ((s.drv d).track.toInt + delta.toInt)))

/-! ## The select handler and the sequencer (spec/43_sync.md) -/

/-- R190, R191, R192: `SEL.CHG` writes the resolved selector and nothing else: in the two-drive topology SELECT_A alone names drive 0, SELECT_B
alone drive 1, both or neither none; in the single-drive topology SELECT_A with MOTOR_A names drive 0, anything else none. -/
def Obligations.SelectResolvesTheLines : Prop :=
  ∀ (s : State) (l : Byte), ∃ sel : Selector, exec (.selChg l) s = .next { s with selector := sel } ∧
    (s.params.topology = .twoDrive →
      (sel = .drive0 ↔ l.getLsbD 0 = true ∧ l.getLsbD 1 = false) ∧ (sel = .drive1 ↔ l.getLsbD 0 = false ∧ l.getLsbD 1 = true)) ∧
    (s.params.topology = .singleDrive →
      (sel = .drive0 ↔ l.getLsbD 0 = true ∧ l.getLsbD 2 = true) ∧ sel ≠ .drive1)

/-- R194: `SEQ.DISP d` takes drive `d` from IDLE to ENTER when every drive is Deselected and the selector names it, and changes nothing
otherwise. R44, R279: at most one drive is Selected, and the two sequencers are run one at a time: while the other drive is Selected no sequencer
operation has an effect. That what is not enabled changes nothing is the model's choice (assumption log 11). -/
def Obligations.DispatchSelectsTheNamedDrive : Prop :=
  ∀ (s : State) (d : DriveId), s.params.hasDrive d = true →
    (s.drv0.step = .idle → s.drv1.step = .idle → s.selected d = true →
      exec (.seqDisp d) s = .next { s.setDrv d { s.drv d with step := .enter } with result := .status .ok }) ∧
    ((s.drv0.step ≠ .idle ∨ s.drv1.step ≠ .idle ∨ s.selected d = false) → exec (.seqDisp d) s = .next s) ∧
    ((s.other d).step ≠ .idle →
      ∀ i ∈ [Instr.seqEnter d, .seqChk d, .seqSide d, .seqPos d, .seqLba d, .seqFetch d, .seqXfer d, .seqNext d, .seqExit d],
        exec i s = .next s)

/-- R195, R196, R197, R211: `SEQ.ENTER d` on loaded, legal geometry: DISK_CHANGE asserted if CHANGED is pending, CHANGED acknowledged if a medium
is present, WRITE_PROTECT from READONLY, the transceiver armed, sector 0, step CHK, nothing else; on other geometry it is refused. -/
def Obligations.EnterActions : Prop :=
  ∀ (s : State) (d : DriveId), s.params.hasDrive d = true → (s.other d).step = .idle →
    let x := s.drv d
    let f := x.img.flags
    let legal := 1 ≤ x.img.numTrack.toNat ∧ 1 ≤ x.img.numSec.toNat
      ∧ (s.params.half d = true → x.img.numSec.toNat % 2 = 0)
    (x.img.geometryLoaded = true → legal →
      exec (.seqEnter d) s = .next { s.setDrv d { x with
          sector := 0#8, step := .chk,
          img := { x.img with flags := { f with changed := f.changed && !(f.ready || s.vdisk d) } } } with
        out := { s.out with diskChange := if f.changed then .asserted else s.out.diskChange
                            writeProtect := if f.readonly then .asserted else .released }
        calls := s.calls ++ [.arm x.bitLength]
        result := .status .ok }) ∧
    (x.img.geometryLoaded = true → ¬ legal → exec (.seqEnter d) s = .refused .geometryOutsideModel) ∧
    (x.img.geometryLoaded = false → exec (.seqEnter d) s = .refused .geometryNeverLoaded)

/-- R200, R207: `SEQ.CHK` goes to SIDE while the selector names the drive, else to EXIT; `SEQ.EXIT` releases DISK_CHANGE and WRITE_PROTECT whatever they
were and takes the drive to (Deselected, IDLE). Neither changes anything else. -/
def Obligations.CheckAndExit : Prop :=
  (∀ d : DriveId, encode (.seqChk d) = [0x32#8, driveByte d] ∧ encode (.seqExit d) = [0x39#8, driveByte d]) ∧
  (∀ x : Drive, x.run = .deselected ↔ x.step = .idle) ∧
  ∀ (s : State) (d : DriveId), s.params.hasDrive d = true → (s.other d).step = .idle →
    exec (.seqChk d) s = .next { s.setDrv d { s.drv d with
      step := if s.selector = d.pick .drive0 .drive1 then .side else .exit } with result := .status .ok } ∧
    exec (.seqExit d) s = .next { s.setDrv d { s.drv d with step := .idle } with
      out := { s.out with diskChange := .released, writeProtect := .released }, result := .status .ok }

/-- R201, R206: `SEQ.SIDE` samples the SIDE line, asserted giving side 1, and goes to POS; `SEQ.NEXT` with `sector + 1 = numSec` wraps to 0, otherwise
adds one, and goes to CHK; inside the geometry `sector` stays below `numSec`. The successor of sector 255 is a free value (assumption log 6). Neither
changes anything else. -/
def Obligations.SideAndNext : Prop :=
  ∀ (s : State) (d : DriveId), s.params.hasDrive d = true → (s.other d).step = .idle →
    exec (.seqSide d) s = .next { s.setDrv d { s.drv d with
      side := if s.inp.side = .asserted then 1#1 else 0#1, step := .pos } with result := .status .ok } ∧
    ∃ (v : Byte) (n : Nat),
      exec (.seqNext d) s = .next { s.setDrv d { s.drv d with sector := v, step := .chk } with result := .status .ok, draws := n } ∧
      ((s.drv d).sector.toNat < 255 → n = s.draws ∧
        v.toNat = if (s.drv d).sector.toNat + 1 = (s.drv d).img.numSec.toNat then 0 else (s.drv d).sector.toNat + 1) ∧
      ((s.drv d).sector.toNat < (s.drv d).img.numSec.toNat → v.toNat < (s.drv d).img.numSec.toNat)

/-- R202: `SEQ.POS d` is `POS.TAKE`, then `POS.APPLY d` with what it took if the flag was set, and goes to LBA; with the flag clear it writes
nothing but the step. -/
def Obligations.PositionStepTakesThenApplies : Prop :=
  ∀ (s : State) (d : DriveId), s.params.hasDrive d = true → (s.other d).step = .idle →
    (s.trackChangedFlag = true → ∃ t u : State, exec .posTake s = .next t ∧ exec (.posApply d s.pendingTrackDelta) t = .next u ∧
      exec (.seqPos d) s = .next { u.setDrv d { u.drv d with step := .lba } with result := .status .ok }) ∧
    (s.trackChangedFlag = false →
      exec (.seqPos d) s = .next { s.setDrv d { s.drv d with step := .lba } with result := .status .ok })

/-- R203, R76: `SEQ.LBA d` writes `(track*2 + side) * numSec + sector` for every `track >= 0` and goes to FETCH, changing nothing else; with
`track <= numTrack-1`, `sector <= numSec-1` the block address lies inside the image. For a negative `track` the address may be a free value
(assumption log 6). -/
def Obligations.LbaIsTheChsAddress : Prop :=
  ∀ (s : State) (d : DriveId), s.params.hasDrive d = true → (s.other d).step = .idle →
    let x := s.drv d
    ∃ (v : Word32) (n : Nat),
      exec (.seqLba d) s = .next { s.setDrv d { x with lba := v, step := .fetch } with result := .status .ok, draws := n } ∧
      (0 ≤ x.track.toInt → n = s.draws ∧
        (v.toNat : Int) = (x.track.toInt * 2 + x.side.toNat) * x.img.numSec.toNat + x.sector.toNat ∧
        (x.track.toInt < x.img.numTrack.toNat → x.sector.toNat < x.img.numSec.toNat →
          v.toNat < x.img.numTrack.toNat * 2 * x.img.numSec.toNat))

/-- R204: where the drive's target is none the model refuses, `SEQ.FETCH d` completes with the effect of `SEC.RD d`, whose status chooses the step:
XFER when it is `OK` or `XMIT_AFTER_READ_FAIL`, else NEXT. On a target the model refuses (U3, U8) both are refused. -/
def Obligations.FetchChoosesTheStep : Prop :=
  ∀ (s : State) (d : DriveId), s.params.hasDrive d = true → (s.other d).step = .idle →
    ((∀ r, s.resolve (s.params.half d) d ≠ .stop r) → ∃ t : State, exec (.secRd d) s = .next t ∧
      exec (.seqFetch d) s = .next { t.setDrv d { t.drv d with
        step := if t.result = .status .ok ∨ s.params.xmitAfterReadFail = true then .xfer else .next } with
        result := .status .ok }) ∧
    (∀ r, s.resolve (s.params.half d) d = .stop r → exec (.seqFetch d) s = .refused r ∧ exec (.secRd d) s = .refused r)

/-- R205, R148, R150: `SEQ.XFER d` completes with the effect of `FRM.SLOT256 d` in half-sector mode, of `FRM.SLOT512 d` otherwise, and goes to NEXT
whatever status that ends with. A slot that transmits (supported format, and an even index in half-sector mode) completes while WRITE_GATE is
released, unless it would store data that passed its CRC test to a target the model refuses (U3, U8): then it is refused as a whole
(assumption log 25); one that does not transmit always completes. R155 makes a transmitting slot wait while WRITE_GATE is asserted; that the whole of it waits, its framing and its
transmission too, is the model's choice (assumption log 12). -/
def Obligations.TransferRunsTheSlot : Prop :=
  ∀ (s : State) (d : DriveId), s.params.hasDrive d = true → (s.other d).step = .idle →
    let slot : Instr := if s.params.half d = true then .frmSlot256 d else .frmSlot512 d
    let clean : Bool := if s.params.half d = true then s.slotPairClean d else s.slotFullClean d
    let transmits : Prop := s.supported d = true ∧ (s.params.half d = true → (s.drv d).sector.toNat % 2 = 0)
    ((transmits → s.inp.writeGate = .released) → (∀ r, transmits → s.resolve (s.params.half d) d = .stop r → clean = false) →
      ∃ t : State, exec slot s = .next t ∧
        exec (.seqXfer d) s = .next { t.setDrv d { t.drv d with step := .next } with result := .status .ok }) ∧
    (s.inp.writeGate = .asserted → transmits →
      exec (.seqXfer d) s = .next { s with busyWait := some (.seqXfer d) } ∧
      exec slot s = .next { s with busyWait := some slot }) ∧
    (∀ r, s.inp.writeGate = .released → transmits → s.resolve (s.params.half d) d = .stop r → clean = true →
      exec (.seqXfer d) s = .refused r ∧ exec slot s = .refused r)

/-- R199, R208: with no event given and no busy-wait, the step of the main loop is the operation of the position of the one Selected drive (that the
main loop runs by itself is the model's form, assumption log 7); and where that operation completes without waiting, the position moves along
ENTER, CHK, SIDE, POS, LBA, FETCH, XFER, NEXT, CHK, leaving the loop only from CHK by EXIT to IDLE and skipping XFER only from FETCH. -/
def Obligations.WiredLoopOrder : Prop :=
  ∀ (s : State) (d : DriveId), s.session → s.trace = [] → s.busyWait = none → (s.drv d).step ≠ .idle →
    (∀ i, (s.drv d).step.operation d = some i → step s = exec i s) ∧
    (∃ i, (s.drv d).step.operation d = some i ∧ Instr.position i = some (d, (s.drv d).step)) ∧
    ∀ t : State, step s = .next t → t.busyWait = none →
      match (s.drv d).step with
      | .idle => False
      | .enter => (t.drv d).step = .chk
      | .chk => (t.drv d).step = .side ∨ (t.drv d).step = .exit
      | .side => (t.drv d).step = .pos
      | .pos => (t.drv d).step = .lba
      | .lba => (t.drv d).step = .fetch
      | .fetch => (t.drv d).step = .xfer ∨ (t.drv d).step = .next
      | .xfer => (t.drv d).step = .next
      | .next => (t.drv d).step = .chk
      | .exit => (t.drv d).step = .idle

/-- R209: a deselect that is in force when the main loop stands at NEXT of one slot ends the session before the next sector is touched: three steps
lead to IDLE, and no store, no buffer byte and no collaborator call is added on the way. -/
def Obligations.DeselectEndsTheSession : Prop :=
  ∀ (s : State) (d : DriveId), s.session → s.trace = [] → s.busyWait = none → (s.drv d).step = .next → s.selected d = false →
    ∃ t u v : State, step s = .next t ∧ step t = .next u ∧ step u = .next v ∧
      (t.drv d).step = .chk ∧ (u.drv d).step = .exit ∧ (v.drv d).step = .idle ∧
      v.calls = s.calls ∧ v.pstore = s.pstore ∧ v.vstore = s.vstore ∧ v.buf = s.buf ∧ v.reports = s.reports ∧
      v.out.diskChange = .released ∧ v.out.writeProtect = .released

/-! ## The read path and the write path (spec/44_storage.md) -/

/-- R220, R221, R222, R224: `SEC.RD d` on a READY drive reads the one slot R221 names: status 0 puts its 512 bytes in `BUF[9..520]` and returns `OK`; another
status is reported and returned. No other buffer byte changes. With neither READY nor a virtual image it touches nothing and returns `NoMedia`. What U3 and
U8 refuse is refused. -/
def Obligations.SectorRead : Prop :=
  ∀ (s : State) (d : DriveId), s.params.hasDrive d = true →
    let x := s.drv d
    let idx := x.img.startSector.toNat + (if s.params.half d then x.lba.toNat / 2 else x.lba.toNat)
    (x.img.flags.ready = true → idx < 2 ^ 32 → ∃ u : State, exec (.secRd d) s = .next u ∧
      u = { s with buf := u.buf, reports := u.reports, calls := s.calls ++ [.memRead .pstore idx], result := u.result,
                   answers := s.answers.tail, draws := s.draws + 1 } ∧
      bufSameOutside s u (fun a => 9 ≤ a ∧ a < 521) ∧
      (s.answer.st = 0 → u.bufRange 9 512 = s.slotBytes .pstore idx ∧ u.result = .status .ok ∧ u.reports = s.reports) ∧
      (s.answer.st ≠ 0 → u.result = .status .storageReadError ∧ u.reports = s.reports ++ [{
        code := .storageReadError, d := d, track := x.track, side := x.side, sec := x.sector.toNat, lba := x.lba.toNat,
        st := s.answer.st }])) ∧
    (x.img.flags.ready = false → s.vdisk d = true → s.params.half d = false → ∃ u : State, exec (.secRd d) s = .next u ∧
      u = { s with buf := u.buf, reports := u.reports, calls := s.calls ++ [.memRead .vstore x.lba.toNat], result := u.result,
                   answers := s.answers.tail, draws := s.draws + 1 } ∧
      bufSameOutside s u (fun a => 9 ≤ a ∧ a < 521) ∧
      (s.answer.st = 0 → u.bufRange 9 512 = s.slotBytes .vstore x.lba.toNat ∧ u.result = .status .ok ∧ u.reports = s.reports) ∧
      (s.answer.st ≠ 0 → u.result = .status .storageReadError ∧ u.reports = s.reports ++ [{
        code := .storageReadError, d := d, track := x.track, side := x.side, sec := x.sector.toNat, lba := x.lba.toNat,
        st := s.answer.st }])) ∧
    (x.img.flags.ready = false → s.vdisk d = false → exec (.secRd d) s = .next { s with result := .status .noMedia }) ∧
    (x.img.flags.ready = true → 2 ^ 32 ≤ idx → exec (.secRd d) s = .refused .addressOutsideModel) ∧
    (x.img.flags.ready = false → s.vdisk d = true → s.params.half d = true →
      exec (.secRd d) s = .refused .halfSectorOnVirtualStore)

/-- R225, R227, R228, R229: `SEC.WR d` of a full sector whose data passes its CRC test on a READY drive, READONLY or not, writes the 512 payload bytes to slot
`startSector + lba` and to no other; a non-zero status is reported and returned. `BUF` is unchanged. -/
def Obligations.SectorWrite : Prop :=
  ∀ (s : State) (d : DriveId), s.params.hasDrive d = true → s.params.half d = false → (s.drv d).img.flags.ready = true →
    let x := s.drv d
    let idx := x.img.startSector.toNat + x.lba.toNat
    let c := crcBytes s.params.crcPoly s.params.crcInit (s.bufRange 8 513)
    s.bufByte 521 = hi8 c → s.bufByte 522 = lo8 c → idx < 2 ^ 32 →
    ∃ u : State, exec (.secWr d) s = .next u ∧
      u = { s with crc := c, pstore := u.pstore, reports := u.reports, calls := s.calls ++ [.memWrite .pstore idx],
                   result := u.result, answers := s.answers.tail, draws := s.draws + 1 } ∧
      (∀ a, a < 512 * idx ∨ 512 * idx + 512 ≤ a → u.storeByte .pstore a = s.storeByte .pstore a) ∧
      (s.answer.st = 0 → (∀ k, k < 512 → u.storeByte .pstore (512 * idx + k) = s.bufByte (9 + k)) ∧
        u.result = .status .ok ∧ u.reports = s.reports) ∧
      (s.answer.st ≠ 0 → u.result = .status .storageWriteError ∧ u.reports = s.reports ++ [{
        code := .storageWriteError, d := d, track := x.track, side := x.side, sec := x.sector.toNat, lba := x.lba.toNat,
        st := s.answer.st }])

/-- R225, R224: the other targets of a full sector whose data passes its test: the virtual store at `lba`, or no store at all; a physical index past 32
bits is refused (U3). -/
def Obligations.SectorWriteElsewhere : Prop :=
  ∀ (s : State) (d : DriveId), s.params.hasDrive d = true → s.params.half d = false →
    let x := s.drv d
    let c := crcBytes s.params.crcPoly s.params.crcInit (s.bufRange 8 513)
    s.bufByte 521 = hi8 c → s.bufByte 522 = lo8 c →
    (x.img.flags.ready = false → s.vdisk d = true → s.answer.st = 0 → ∃ u : State, exec (.secWr d) s = .next u ∧
      (∀ k, k < 512 → u.storeByte .vstore (512 * x.lba.toNat + k) = s.bufByte (9 + k)) ∧
      (∀ a, a < 512 * x.lba.toNat ∨ 512 * x.lba.toNat + 512 ≤ a → u.storeByte .vstore a = s.storeByte .vstore a) ∧
      u = { s with crc := c, vstore := u.vstore, calls := s.calls ++ [.memWrite .vstore x.lba.toNat],
                   result := .status .ok, answers := s.answers.tail, draws := s.draws + 1 }) ∧
    (x.img.flags.ready = false → s.vdisk d = true → s.answer.st ≠ 0 → ∃ u : State, exec (.secWr d) s = .next u ∧
      (∀ a, a < 512 * x.lba.toNat ∨ 512 * x.lba.toNat + 512 ≤ a → u.storeByte .vstore a = s.storeByte .vstore a) ∧
      u = { s with crc := c, vstore := u.vstore, calls := s.calls ++ [.memWrite .vstore x.lba.toNat],
                   reports := s.reports ++ [{ code := .storageWriteError, d := d, track := x.track, side := x.side,
                                              sec := x.sector.toNat, lba := x.lba.toNat, st := s.answer.st }],
                   result := .status .storageWriteError, answers := s.answers.tail, draws := s.draws + 1 }) ∧
    (x.img.flags.ready = false → s.vdisk d = false → exec (.secWr d) s = .next { s with crc := c, result := .status .noMedia }) ∧
    (x.img.flags.ready = true → 2 ^ 32 ≤ x.img.startSector.toNat + x.lba.toNat → exec (.secWr d) s = .refused .addressOutsideModel)

/-- R156, R221: `SEC.WR d` in half-sector mode (the model's reading, assumption log 10): the half `lba[0]`, whose data passes its CRC test, goes into its 256
bytes of slot `startSector + (lba >> 1)` of a READY drive and nowhere else; without a medium no store is touched; U3 and U8 are refused. -/
def Obligations.HalfSectorWrite : Prop :=
  ∀ (s : State) (d : DriveId), s.params.hasDrive d = true → s.params.half d = true →
    let x := s.drv d
    let h := x.lba.toNat % 2
    let b := 8 + 256 * h
    let idx := x.img.startSector.toNat + x.lba.toNat / 2
    let at0 := 512 * idx + 256 * h
    let c := crcBytes s.params.crcPoly s.params.crcInit (s.bufRange b 257)
    s.bufByte (b + 257) = hi8 c → s.bufByte (b + 258) = lo8 c →
    (x.img.flags.ready = true → idx < 2 ^ 32 → ∃ u : State, exec (.secWr d) s = .next u ∧
      u = { s with crc := c, pstore := u.pstore, reports := u.reports, calls := s.calls ++ [.halfWrite idx h],
                   result := u.result, answers := s.answers.tail, draws := s.draws + 1 } ∧
      (s.answer.st = 0 → (∀ k, k < 256 → u.storeByte .pstore (at0 + k) = s.bufByte (b + 1 + k)) ∧
        (∀ a, a < at0 ∨ at0 + 256 ≤ a → u.storeByte .pstore a = s.storeByte .pstore a) ∧
        u.result = .status .ok ∧ u.reports = s.reports) ∧
      (s.answer.st ≠ 0 → (∀ a, a < 512 * idx ∨ 512 * idx + 512 ≤ a → u.storeByte .pstore a = s.storeByte .pstore a) ∧
        u.result = .status .storageWriteError ∧ u.reports = s.reports ++ [{
          code := .storageWriteError, d := d, track := x.track, side := x.side, sec := x.sector.toNat, lba := x.lba.toNat,
          st := s.answer.st }])) ∧
    (x.img.flags.ready = true → 2 ^ 32 ≤ idx → exec (.secWr d) s = .refused .addressOutsideModel) ∧
    (x.img.flags.ready = false → s.vdisk d = true → exec (.secWr d) s = .refused .halfSectorOnVirtualStore) ∧
    (x.img.flags.ready = false → s.vdisk d = false → exec (.secWr d) s = .next { s with crc := c, result := .status .noMedia })

/-- R226: "The CRC test comes first and guards every store write": where the recomputed CRC of the identifier byte and the payload (in half-sector mode of the
half `lba[0]`, assumption log 10) differs from the two trailing bytes, `SEC.WR` reports one mismatch and touches neither a store nor `BUF`, whatever the
drive's target. -/
def Obligations.MismatchDropsTheWrite : Prop :=
  ∀ (s : State) (d : DriveId), s.params.hasDrive d = true →
    let x := s.drv d
    let b := if s.params.half d = true then 8 + 256 * (x.lba.toNat % 2) else 8
    let len := if s.params.half d = true then 257 else 513
    let c := crcBytes s.params.crcPoly s.params.crcInit (s.bufRange b len)
    ¬ (s.bufByte (b + len) = hi8 c ∧ s.bufByte (b + len + 1) = lo8 c) →
    exec (.secWr d) s = .next { s with
      crc := c,
      reports := s.reports ++ [{ code := .crcMismatch, d := d, track := x.track, side := x.side, sec := x.sector.toNat,
                                 lba := x.lba.toNat, st := 0 }],
      result := .status .crcMismatch }

/-! ## Host operations (spec/45_host.md) -/

/-- R240, R246: a successful load, by the descriptor or the Drive Runtime, writes the geometry, the base slot, the identity and the three flags, and nothing else;
a failed one changes nothing and returns `LoadError`. -/
def Obligations.LoadSetsTheDescriptor : Prop :=
  ∀ (s : State) (d : DriveId) (nt : Word16) (ns : Byte) (start : Word32) (ro : Bool),
    s.params.hasDrive d = true → s.drv0.step = .idle → s.drv1.step = .idle →
    let t : State := { s.setDrv d { s.drv d with img := {
        flags := { changed := true, ready := true, readonly := ro }, numTrack := nt, numSec := ns, startSector := start,
        fName := true, geometryLoaded := true } } with result := .status .ok }
    exec (.imgLoad d nt ns start ro true) s = .next t ∧ exec (.drvLoad d nt ns start ro true) s = .next t ∧
    exec (.imgLoad d nt ns start ro false) s = .next { s with result := .status .loadError } ∧
    exec (.drvLoad d nt ns start ro false) s = .next { s with result := .status .loadError }

/-- R241, R247: eject clears identity, READY and READONLY and sets CHANGED, whatever was before, and keeps the geometry; the Drive Runtime's also sets `track`, `side`,
`sector` to 0. Neither touches an output, the shared step state or the other drive. -/
def Obligations.EjectClearsTheDescriptor : Prop :=
  ∀ (s : State) (d : DriveId), s.params.hasDrive d = true → s.drv0.step = .idle → s.drv1.step = .idle →
    let img := { (s.drv d).img with fName := false, flags := { changed := true, ready := false, readonly := false } }
    exec (.imgEject d) s = .next { s.setDrv d { s.drv d with img := img } with result := .status .ok } ∧
    exec (.drvEject d) s = .next { s.setDrv d { s.drv d with img := img, track := 0#16, side := 0#1, sector := 0#8 } with
      result := .status .ok }

/-- R242, R243, R244: the predicates return their flag and change nothing; after reset `IMG.RDY` answers false. -/
def Obligations.PredicatesReturnTheirFlag : Prop :=
  ∀ d : DriveId,
    encode (.imgRdy d) = [0x52#8, driveByte d] ∧ encode (.imgRo d) = [0x53#8, driveByte d] ∧
    encode (.imgChg d) = [0x54#8, driveByte d] ∧ (State.reset.drv d).img.flags.ready = false ∧
    ∀ s : State, s.params.hasDrive d = true → s.drv0.step = .idle → s.drv1.step = .idle →
      exec (.imgRdy d) s = .next { s with result := .bool (s.drv d).img.flags.ready } ∧
      exec (.imgRo d) s = .next { s with result := .bool (s.drv d).img.flags.readonly } ∧
      exec (.imgChg d) s = .next { s with result := .bool (s.drv d).img.flags.changed }

/-- R245: `IMG.CLRCHG` clears CHANGED only, and a second one changes nothing more; the entry actions use it: with CHANGED pending and a medium present they leave
the descriptor that it leaves. -/
def Obligations.ClearChangedIsIdempotent : Prop :=
  ∀ d : DriveId, encode (.imgClrchg d) = [0x55#8, driveByte d] ∧
    ∀ s : State, s.params.hasDrive d = true →
      let cleared : Image := { (s.drv d).img with flags := { (s.drv d).img.flags with changed := false } }
      (s.drv0.step = .idle → s.drv1.step = .idle → ∃ t : State, exec (.imgClrchg d) s = .next t ∧
        t = { s.setDrv d { s.drv d with img := cleared } with result := .status .ok } ∧
        exec (.imgClrchg d) t = .next t) ∧
      ((s.other d).step = .idle → (s.drv d).img.geometryLoaded = true → geometryLegal (s.params.half d) (s.drv d).img = true →
        (s.drv d).img.flags.changed = true → ((s.drv d).img.flags.ready = true ∨ s.vdisk d = true) →
        ∃ u : State, exec (.seqEnter d) s = .next u ∧ (u.drv d).img = cleared)

/-- R248: while a drive is Selected no host operation is admitted. -/
def Obligations.HostOperationsNeedIdleDrives : Prop :=
  ∀ (s : State) (d : DriveId) (nt : Word16) (ns : Byte) (start : Word32) (ro ok : Bool), s.params.hasDrive d = true →
    (s.drv0.step ≠ .idle ∨ s.drv1.step ≠ .idle) →
    ∀ i ∈ [Instr.imgLoad d nt ns start ro ok, .imgEject d, .imgRdy d, .imgRo d, .imgChg d, .imgClrchg d,
        .drvLoad d nt ns start ro ok, .drvEject d],
      exec i s = .refused .hostOpWhileSelected

/-! ## Reset (spec/10_state.md, spec/70_reset_and_hazards.md) -/

/-- R46, R301: the values the reset table gives. The values it leaves unspecified are not stated. -/
def Obligations.ResetValues : Prop :=
  (∀ d : DriveId, let x := State.reset.drv d
    x.track = 0#16 ∧ x.side = 0#1 ∧ x.sector = 0#8 ∧ x.step = .idle ∧ x.run = .deselected ∧
    x.img.flags = { changed := true, ready := false, readonly := false } ∧ x.img.fName = false ∧
    x.img.geometryLoaded = false ∧ x.bitLength = State.reset.params.bitLength d) ∧
  State.reset.pendingTrackDelta = 0#16 ∧ State.reset.trackChangedFlag = false ∧ State.reset.selector = .none ∧
  State.reset.out = { track0 := .asserted, writeProtect := .released, diskChange := .released }

/-- R300, R46: `SYS.RESET` gives every register the table's value, from every state. That the parameters, the input lines, the stores, the reports, the
calls, the trace and the answers stay, and that a busy-wait ends, is the model's reading (assumption log 19). -/
def Obligations.SystemReset : Prop :=
  ∀ s : State, ∃ t : State, exec .sysReset s = .next t ∧
    (∀ d : DriveId, let x := t.drv d
      x.track = 0#16 ∧ x.side = 0#1 ∧ x.sector = 0#8 ∧ x.step = .idle ∧
      x.img.flags = { changed := s.params.resetChanged, ready := false, readonly := false } ∧ x.img.fName = false ∧
      x.img.geometryLoaded = false ∧ x.bitLength = s.params.bitLength d) ∧
    t.pendingTrackDelta = 0#16 ∧ t.trackChangedFlag = false ∧ t.selector = .none ∧
    t.out = { track0 := .asserted, writeProtect := .released, diskChange := .released } ∧
    t.busyWait = none ∧ t.params = s.params ∧ t.inp = s.inp ∧ t.pstore = s.pstore ∧ t.vstore = s.vstore ∧
    t.reports = s.reports ∧ t.calls = s.calls ∧ t.trace = s.trace ∧ t.answers = s.answers

/-! ## Rules about the whole block -/

/-- R80, R36, R275, R33: no operation changes the parameters; only `SEL.CHG` and reset write the selector; only `STP.EDGE`, `POS.TAKE`, `SEQ.POS` and reset
write the delta or the flag; the two handlers write nothing else. -/
def Obligations.WhoWritesTheSharedState : Prop :=
  ∀ (i : Instr) (s t : State), exec i s = .next t →
    t.params = s.params ∧
    (t.selector ≠ s.selector → (∃ l, i = .selChg l) ∨ i = .sysReset) ∧
    ((t.pendingTrackDelta ≠ s.pendingTrackDelta ∨ t.trackChangedFlag ≠ s.trackChangedFlag) →
      (∃ f, i = .stpEdge f) ∨ i = .posTake ∨ (∃ d, i = .seqPos d) ∨ i = .sysReset) ∧
    (i.context = some .handler →
      t = { s with pendingTrackDelta := t.pendingTrackDelta, trackChangedFlag := t.trackChangedFlag, selector := t.selector })

/-- R39, R275: TRACK0 is written only by the step that applies a delta, WRITE_PROTECT only by the entry and exit actions, DISK_CHANGE only by these three; reset
writes all. -/
def Obligations.WhoWritesTheOutputs : Prop :=
  ∀ (i : Instr) (s t : State), exec i s = .next t → i ≠ .sysReset →
    (t.out.track0 ≠ s.out.track0 → (∃ d v, i = .posApply d v) ∨ (∃ d, i = .seqPos d)) ∧
    (t.out.writeProtect ≠ s.out.writeProtect → (∃ d, i = .seqEnter d) ∨ (∃ d, i = .seqExit d)) ∧
    (t.out.diskChange ≠ s.out.diskChange →
      (∃ d v, i = .posApply d v) ∨ (∃ d, i = .seqPos d) ∨ (∃ d, i = .seqEnter d) ∨ (∃ d, i = .seqExit d))

/-- R264: no error of a transfer stops the loop: whatever `SEQ.FETCH` and `SEQ.XFER` end with, the drive stays Selected, and the selector, the outputs, the other
drive, and the drive's `track`, `side`, `sector` and descriptor are unchanged. -/
def Obligations.TransferErrorsNeverStopTheLoop : Prop :=
  ∀ (i : Instr) (d e : DriveId) (s t : State), (i = .seqFetch d ∨ i = .seqXfer d) → (s.drv d).step ≠ .idle → exec i s = .next t →
    t.selector = s.selector ∧ t.out = s.out ∧ (t.drv d).run = .selected ∧
    (t.drv d).track = (s.drv d).track ∧ (t.drv d).side = (s.drv d).side ∧ (t.drv d).sector = (s.drv d).sector ∧
    (t.drv d).img = (s.drv d).img ∧ (e ≠ d → t.drv e = s.drv e)

/-- R61 to R63, R44, R314: every step keeps the memories canonical and inside their address spaces, and keeps the flag true while a delta is pending. -/
def Obligations.EveryStepKeepsTheData : Prop := ∀ s t : State, s.wf → step s = .next t → t.wf

/-- R44, R27, R279: every step, whatever the trace, keeps at most one drive Selected (of a trace that runs a second drive's sequencer this is the
model's reading, assumption log 11). Every step, whatever the trace, keeps `sector < numSec` for every drive with valid geometry, at every step of
its sequencer (ENTER, too), unless it is a successful load of fewer sectors: R246 has a load keep `sector`, and that R44 does not hold in the
window it opens is the model's reading (assumption log 27). Every step whose operation stands where R199 puts it keeps the
session invariant: inside the loop, whatever was loaded before it, the geometry is legal and `sector < numSec`. With no event given every step does. -/
def Obligations.OrderedStepsKeepTheSession : Prop :=
  (∀ s t : State, (s.drv0.step = .idle ∨ s.drv1.step = .idle) → step s = .next t → (t.drv0.step = .idle ∨ t.drv1.step = .idle)) ∧
  (∀ s t : State, s.sectorsInRange → (∀ i, s.nextOperation = some i → loadCoversSector i s) → step s = .next t → t.sectorsInRange) ∧
  (∀ s t : State, s.session → (∀ i, s.nextOperation = some i → inOrder i s) → step s = .next t → t.session) ∧
  (∀ s t : State, s.session → s.trace = [] → step s = .next t → t.session ∧ t.trace = [])

/-- The invariants hold after reset. -/
def Obligations.InvariantsHoldAfterReset : Prop := State.reset.wf ∧ State.reset.session ∧ State.reset.sectorsInRange

/-! ## Encoding and stepping (spec/30_encoding.md) -/

/-- R104, R91 to R93: for every well-formed operation and every frame, the decoder reads the encoding back, with every operand. That the decoder
reads a line that begins with `0xFE` or `0xFB` as a frame, and a data field's format from the line's length, is the model's choice (assumption
log 18); as operations R105 calls these selectors invalid, and a frame is refused (ReservedSelectorsAreRefused). -/
def Obligations.DecodeUndoesEncode : Prop :=
  ∀ i : Instr, i.wellFormed = true → decodeLine (encode i) = .ok (.op i)

/-- R104, R106: lines written out in the programs of spec/95_test_vectors.md decode to the operations they stand for; and the ID field that V-FRM-1
builds decodes to its frame, which is no trace line of the spec: that the decoder reads it is the model's choice (assumption log 18). -/
def Obligations.WordsOfTheSpecDecode : Prop :=
  decodeLine [0x56#8, 0x00#8, 0x00#8, 0x28#8, 0x12#8, 0x00#8, 0x00#8, 0x03#8, 0xE8#8, 0x00#8, 0x01#8]
    = .ok (.op (.drvLoad .drive0 40#16 18#8 1000#32 false true)) ∧
  decodeLine [0x22#8, 0x00#8, 0x01#8, 0x2C#8] = .ok (.op (.posApply .drive0 300#16)) ∧
  decodeLine [0x17#8, 0x00#8, 0x00#8, 0x02#8, 0x0C#8] = .ok (.op (.xcvTx 0#16 524#16)) ∧
  decodeLine [0x3A#8, 0x01#8] = .ok (.op (.seqDisp .drive1)) ∧
  decodeLine [0xFE#8, 0x00#8, 0x00#8, 0x01#8, 0x02#8, 0xCA#8, 0x6F#8, 0x4E#8]
    = .ok (.op (.frameId 0#8 0#8 1#8 2#8 0xCA6F#16)) ∧
  decodeLine [0x70#8, 0x01#8] = .ok (.envSide true)

/-- R106, R79, R199: the step takes the head of the trace. With no busy-wait an operation is run on the state without its line. An environment line sets its
input and nothing else, in a busy-wait too: `ENV.SIDE`, `ENV.WGATE`, `ENV.DIR` a level, `ENV.VDISK d` the input `VDISK[d]`, "changed only while the
drive is Deselected" (D24). That the line is refused while the drive is Selected, and for a drive the topology lacks, is the model's choice
(assumption logs 23 and 20). With no line left the step runs the main loop's own operation, and with
none it changes nothing: while a drive is Selected that operation is WiredLoopOrder's, with every drive Deselected it is `SEQ.DISP` of the drive the
selector names. That events come from `State.trace`, and the main loop runs by itself without one, is the model's form (assumption log 7). -/
def Obligations.StepRunsTheNextLine : Prop :=
  (∀ (s : State) (line : List Byte) (rest : List (List Byte)) (i : Instr),
    s.busyWait = none → s.trace = line :: rest → decodeLine line = .ok (.op i) → step s = exec i { s with trace := rest }) ∧
  (∀ (s : State) (line : List Byte) (rest : List (List Byte)) (v : Bool),
    (s.busyWait = none ∨ s.inp.writeGate = .asserted) → s.trace = line :: rest →
    let level : Level := if v then .asserted else .released
    (decodeLine line = .ok (.envSide v) → step s = .next { s with trace := rest, inp := { s.inp with side := level } }) ∧
    (decodeLine line = .ok (.envWgate v) → step s = .next { s with trace := rest, inp := { s.inp with writeGate := level } }) ∧
    (decodeLine line = .ok (.envDir v) → step s = .next { s with trace := rest, inp := { s.inp with stepDir := level } }) ∧
    (∀ d, decodeLine line = .ok (.envVdisk d v) →
      (s.params.hasDrive d = true → (s.drv d).step = .idle → ∃ t : State, step s = .next t ∧
        t = { s with trace := rest, inp := t.inp } ∧ t.vdisk d = v ∧ (∀ e, e ≠ d → t.vdisk e = s.vdisk e) ∧
        t.inp.side = s.inp.side ∧ t.inp.writeGate = s.inp.writeGate ∧ t.inp.stepDir = s.inp.stepDir) ∧
      (s.params.hasDrive d = true → (s.drv d).step ≠ .idle → step s = .refused .vdiskWhileSelected) ∧
      (s.params.hasDrive d = false → step s = .refused .noSuchDrive))) ∧
  (∀ (s : State) (i : Instr), s.busyWait = none → s.trace = [] → s.mainLoopNext = some i → step s = exec i s) ∧
  (∀ s : State, s.busyWait = none → s.trace = [] → s.mainLoopNext = none → step s = .next s) ∧
  (∀ s : State, s.drv0.step = .idle → s.drv1.step = .idle →
    (∀ d, s.selected d = true → s.mainLoopNext = some (.seqDisp d)) ∧ (s.selector = .none → s.mainLoopNext = none))

/-- R105, R90: a line whose selector is not in R104's table, R106's environment lines or a frame's mark is refused, and so is a frame as an operation
(that its line decodes first is the model's choice, assumption log 18). R9: an operation on a drive the topology lacks is refused (the model's choice
of a stop, assumption log 20). -/
def Obligations.ReservedSelectorsAreRefused : Prop :=
  (∀ (s : State) (sel : Byte) (ops : List Byte) (rest : List (List Byte)), s.busyWait = none → s.trace = (sel :: ops) :: rest →
    operationLength sel.toNat = 0 → sel.toNat ∉ [0x70, 0x71, 0x72, 0x73, 0xFE, 0xFB] →
    step s = .refused (.undecodable (.reservedSelector sel.toNat))) ∧
  (∀ (s : State) (t h sec n : Byte) (c : Word16), exec (.frameId t h sec n c) s = .refused .frameIsNoOperation) ∧
  (∀ (s : State) (p : List Byte) (c : Word16), exec (.frameData512 p c) s = .refused .frameIsNoOperation) ∧
  (∀ (s : State) (p : List Byte) (c : Word16), exec (.frameData256 p c) s = .refused .frameIsNoOperation) ∧
  (∀ (s : State) (d : DriveId) (dl nt : Word16) (ns : Byte) (start : Word32) (ro ok : Bool),
    (s.params.hasDrive d = false ↔ s.params.topology = .singleDrive ∧ d = .drive1) ∧
    (s.params.hasDrive d = false →
      ∀ i ∈ [Instr.frmSlot512 d, .frmSlot256 d, .posApply d dl, .seqEnter d, .seqChk d, .seqSide d, .seqPos d, .seqLba d, .seqFetch d,
          .seqXfer d, .seqNext d, .seqExit d, .seqDisp d, .secRd d, .secWr d, .imgLoad d nt ns start ro ok, .imgEject d, .imgRdy d, .imgRo d,
          .imgChg d, .imgClrchg d, .drvLoad d nt ns start ro ok, .drvEject d],
        exec i s = .refused .noSuchDrive))

/-- R314: while WRITE_GATE holds a readback, no main-loop operation takes place, handlers still do, and as soon as the gate is released the waiting
operation goes on. The environment is not held: `SYS.RESET` and the environment lines take place, `ENV.WGATE 0` among them, which is the way out and
leaves the operation waiting for the next step. That the waiting operation is a whole one, and that a main-loop line stays in the trace behind it, is the
model's choice (assumption log 12). -/
def Obligations.StuckBusyWait : Prop :=
  ∀ (s : State) (w : Instr), s.busyWait = some w →
    (s.inp.writeGate = .asserted → s.trace = [] → step s = .next s) ∧
    (s.inp.writeGate = .asserted → ∀ line rest i, s.trace = line :: rest → decodeLine line = .ok (.op i) →
      i.context = some .mainLoop → step s = .next s) ∧
    (s.inp.writeGate = .asserted → ∀ line rest i, s.trace = line :: rest → decodeLine line = .ok (.op i) →
      (i.context = some .handler ∨ i.context = some .environment) → step s = exec i { s with trace := rest }) ∧
    (s.inp.writeGate = .asserted → ∀ line rest, s.trace = line :: rest → decodeLine line = .ok (.envWgate false) →
      ∃ t : State, step s = .next t ∧ t = { s with trace := rest, inp := { s.inp with writeGate := .released } } ∧
        step t = exec w { t with busyWait := none }) ∧
    (s.inp.writeGate = .asserted → ∀ line rest item, s.trace = line :: rest → decodeLine line = .ok item →
      (∀ i, item ≠ .op i) → step s = runItem item { s with trace := rest }) ∧
    (s.inp.writeGate = .released → step s = exec w { s with busyWait := none })
end

