-- ==== Sys2Proof/Laws/State.lean ====
section
/-!
SUPPORT. One lemma per field per state update: what each named update leaves in every field of the state. Later proofs rewrite with
these and unfold no record update.
-/

namespace Sys2Proof.Machine

/-! `State.putBuf` -/

@[simp] theorem State.putBuf_params (s : State) (off : Nat) (bs : List Byte) : (s.putBuf off bs).params = s.params := rfl
@[simp] theorem State.putBuf_drv0 (s : State) (off : Nat) (bs : List Byte) : (s.putBuf off bs).drv0 = s.drv0 := rfl
@[simp] theorem State.putBuf_drv1 (s : State) (off : Nat) (bs : List Byte) : (s.putBuf off bs).drv1 = s.drv1 := rfl
@[simp] theorem State.putBuf_pendingTrackDelta (s : State) (off : Nat) (bs : List Byte) : (s.putBuf off bs).pendingTrackDelta = s.pendingTrackDelta := rfl
@[simp] theorem State.putBuf_trackChangedFlag (s : State) (off : Nat) (bs : List Byte) : (s.putBuf off bs).trackChangedFlag = s.trackChangedFlag := rfl
@[simp] theorem State.putBuf_selector (s : State) (off : Nat) (bs : List Byte) : (s.putBuf off bs).selector = s.selector := rfl
@[simp] theorem State.putBuf_buf (s : State) (off : Nat) (bs : List Byte) : (s.putBuf off bs).buf = s.buf.writeBlock off bs := rfl
@[simp] theorem State.putBuf_crc (s : State) (off : Nat) (bs : List Byte) : (s.putBuf off bs).crc = s.crc := rfl
@[simp] theorem State.putBuf_out (s : State) (off : Nat) (bs : List Byte) : (s.putBuf off bs).out = s.out := rfl
@[simp] theorem State.putBuf_inp (s : State) (off : Nat) (bs : List Byte) : (s.putBuf off bs).inp = s.inp := rfl
@[simp] theorem State.putBuf_pstore (s : State) (off : Nat) (bs : List Byte) : (s.putBuf off bs).pstore = s.pstore := rfl
@[simp] theorem State.putBuf_vstore (s : State) (off : Nat) (bs : List Byte) : (s.putBuf off bs).vstore = s.vstore := rfl
@[simp] theorem State.putBuf_reports (s : State) (off : Nat) (bs : List Byte) : (s.putBuf off bs).reports = s.reports := rfl
@[simp] theorem State.putBuf_calls (s : State) (off : Nat) (bs : List Byte) : (s.putBuf off bs).calls = s.calls := rfl
@[simp] theorem State.putBuf_result (s : State) (off : Nat) (bs : List Byte) : (s.putBuf off bs).result = s.result := rfl
@[simp] theorem State.putBuf_busyWait (s : State) (off : Nat) (bs : List Byte) : (s.putBuf off bs).busyWait = s.busyWait := rfl
@[simp] theorem State.putBuf_trace (s : State) (off : Nat) (bs : List Byte) : (s.putBuf off bs).trace = s.trace := rfl
@[simp] theorem State.putBuf_answers (s : State) (off : Nat) (bs : List Byte) : (s.putBuf off bs).answers = s.answers := rfl
@[simp] theorem State.putBuf_draws (s : State) (off : Nat) (bs : List Byte) : (s.putBuf off bs).draws = s.draws := rfl
@[simp] theorem State.putBuf_bufDraw (s : State) (off : Nat) (bs : List Byte) : (s.putBuf off bs).bufDraw = s.bufDraw := rfl

/-! `State.setDrv` -/

@[simp] theorem State.setDrv_params (s : State) (d : DriveId) (x : Drive) : (s.setDrv d x).params = s.params := rfl
@[simp] theorem State.setDrv_drv0 (s : State) (d : DriveId) (x : Drive) : (s.setDrv d x).drv0 = d.pick x s.drv0 := rfl
@[simp] theorem State.setDrv_drv1 (s : State) (d : DriveId) (x : Drive) : (s.setDrv d x).drv1 = d.pick s.drv1 x := rfl
@[simp] theorem State.setDrv_pendingTrackDelta (s : State) (d : DriveId) (x : Drive) : (s.setDrv d x).pendingTrackDelta = s.pendingTrackDelta := rfl
@[simp] theorem State.setDrv_trackChangedFlag (s : State) (d : DriveId) (x : Drive) : (s.setDrv d x).trackChangedFlag = s.trackChangedFlag := rfl
@[simp] theorem State.setDrv_selector (s : State) (d : DriveId) (x : Drive) : (s.setDrv d x).selector = s.selector := rfl
@[simp] theorem State.setDrv_buf (s : State) (d : DriveId) (x : Drive) : (s.setDrv d x).buf = s.buf := rfl
@[simp] theorem State.setDrv_crc (s : State) (d : DriveId) (x : Drive) : (s.setDrv d x).crc = s.crc := rfl
@[simp] theorem State.setDrv_out (s : State) (d : DriveId) (x : Drive) : (s.setDrv d x).out = s.out := rfl
@[simp] theorem State.setDrv_inp (s : State) (d : DriveId) (x : Drive) : (s.setDrv d x).inp = s.inp := rfl
@[simp] theorem State.setDrv_pstore (s : State) (d : DriveId) (x : Drive) : (s.setDrv d x).pstore = s.pstore := rfl
@[simp] theorem State.setDrv_vstore (s : State) (d : DriveId) (x : Drive) : (s.setDrv d x).vstore = s.vstore := rfl
@[simp] theorem State.setDrv_reports (s : State) (d : DriveId) (x : Drive) : (s.setDrv d x).reports = s.reports := rfl
@[simp] theorem State.setDrv_calls (s : State) (d : DriveId) (x : Drive) : (s.setDrv d x).calls = s.calls := rfl
@[simp] theorem State.setDrv_result (s : State) (d : DriveId) (x : Drive) : (s.setDrv d x).result = s.result := rfl
@[simp] theorem State.setDrv_busyWait (s : State) (d : DriveId) (x : Drive) : (s.setDrv d x).busyWait = s.busyWait := rfl
@[simp] theorem State.setDrv_trace (s : State) (d : DriveId) (x : Drive) : (s.setDrv d x).trace = s.trace := rfl
@[simp] theorem State.setDrv_answers (s : State) (d : DriveId) (x : Drive) : (s.setDrv d x).answers = s.answers := rfl
@[simp] theorem State.setDrv_draws (s : State) (d : DriveId) (x : Drive) : (s.setDrv d x).draws = s.draws := rfl
@[simp] theorem State.setDrv_bufDraw (s : State) (d : DriveId) (x : Drive) : (s.setDrv d x).bufDraw = s.bufDraw := rfl

/-! `State.setStep` -/

@[simp] theorem State.setStep_params (s : State) (d : DriveId) (t : SeqStep) : (s.setStep d t).params = s.params := rfl
@[simp] theorem State.setStep_drv0 (s : State) (d : DriveId) (t : SeqStep) : (s.setStep d t).drv0 = d.pick { s.drv d with step := t } s.drv0 := rfl
@[simp] theorem State.setStep_drv1 (s : State) (d : DriveId) (t : SeqStep) : (s.setStep d t).drv1 = d.pick s.drv1 { s.drv d with step := t } := rfl
@[simp] theorem State.setStep_pendingTrackDelta (s : State) (d : DriveId) (t : SeqStep) : (s.setStep d t).pendingTrackDelta = s.pendingTrackDelta := rfl
@[simp] theorem State.setStep_trackChangedFlag (s : State) (d : DriveId) (t : SeqStep) : (s.setStep d t).trackChangedFlag = s.trackChangedFlag := rfl
@[simp] theorem State.setStep_selector (s : State) (d : DriveId) (t : SeqStep) : (s.setStep d t).selector = s.selector := rfl
@[simp] theorem State.setStep_buf (s : State) (d : DriveId) (t : SeqStep) : (s.setStep d t).buf = s.buf := rfl
@[simp] theorem State.setStep_crc (s : State) (d : DriveId) (t : SeqStep) : (s.setStep d t).crc = s.crc := rfl
@[simp] theorem State.setStep_out (s : State) (d : DriveId) (t : SeqStep) : (s.setStep d t).out = s.out := rfl
@[simp] theorem State.setStep_inp (s : State) (d : DriveId) (t : SeqStep) : (s.setStep d t).inp = s.inp := rfl
@[simp] theorem State.setStep_pstore (s : State) (d : DriveId) (t : SeqStep) : (s.setStep d t).pstore = s.pstore := rfl
@[simp] theorem State.setStep_vstore (s : State) (d : DriveId) (t : SeqStep) : (s.setStep d t).vstore = s.vstore := rfl
@[simp] theorem State.setStep_reports (s : State) (d : DriveId) (t : SeqStep) : (s.setStep d t).reports = s.reports := rfl
@[simp] theorem State.setStep_calls (s : State) (d : DriveId) (t : SeqStep) : (s.setStep d t).calls = s.calls := rfl
@[simp] theorem State.setStep_result (s : State) (d : DriveId) (t : SeqStep) : (s.setStep d t).result = s.result := rfl
@[simp] theorem State.setStep_busyWait (s : State) (d : DriveId) (t : SeqStep) : (s.setStep d t).busyWait = s.busyWait := rfl
@[simp] theorem State.setStep_trace (s : State) (d : DriveId) (t : SeqStep) : (s.setStep d t).trace = s.trace := rfl
@[simp] theorem State.setStep_answers (s : State) (d : DriveId) (t : SeqStep) : (s.setStep d t).answers = s.answers := rfl
@[simp] theorem State.setStep_draws (s : State) (d : DriveId) (t : SeqStep) : (s.setStep d t).draws = s.draws := rfl
@[simp] theorem State.setStep_bufDraw (s : State) (d : DriveId) (t : SeqStep) : (s.setStep d t).bufDraw = s.bufDraw := rfl

/-! `State.returning` -/

@[simp] theorem State.returning_params (s : State) (r : Returned) : (s.returning r).params = s.params := rfl
@[simp] theorem State.returning_drv0 (s : State) (r : Returned) : (s.returning r).drv0 = s.drv0 := rfl
@[simp] theorem State.returning_drv1 (s : State) (r : Returned) : (s.returning r).drv1 = s.drv1 := rfl
@[simp] theorem State.returning_pendingTrackDelta (s : State) (r : Returned) : (s.returning r).pendingTrackDelta = s.pendingTrackDelta := rfl
@[simp] theorem State.returning_trackChangedFlag (s : State) (r : Returned) : (s.returning r).trackChangedFlag = s.trackChangedFlag := rfl
@[simp] theorem State.returning_selector (s : State) (r : Returned) : (s.returning r).selector = s.selector := rfl
@[simp] theorem State.returning_buf (s : State) (r : Returned) : (s.returning r).buf = s.buf := rfl
@[simp] theorem State.returning_crc (s : State) (r : Returned) : (s.returning r).crc = s.crc := rfl
@[simp] theorem State.returning_out (s : State) (r : Returned) : (s.returning r).out = s.out := rfl
@[simp] theorem State.returning_inp (s : State) (r : Returned) : (s.returning r).inp = s.inp := rfl
@[simp] theorem State.returning_pstore (s : State) (r : Returned) : (s.returning r).pstore = s.pstore := rfl
@[simp] theorem State.returning_vstore (s : State) (r : Returned) : (s.returning r).vstore = s.vstore := rfl
@[simp] theorem State.returning_reports (s : State) (r : Returned) : (s.returning r).reports = s.reports := rfl
@[simp] theorem State.returning_calls (s : State) (r : Returned) : (s.returning r).calls = s.calls := rfl
@[simp] theorem State.returning_result (s : State) (r : Returned) : (s.returning r).result = r := rfl
@[simp] theorem State.returning_busyWait (s : State) (r : Returned) : (s.returning r).busyWait = s.busyWait := rfl
@[simp] theorem State.returning_trace (s : State) (r : Returned) : (s.returning r).trace = s.trace := rfl
@[simp] theorem State.returning_answers (s : State) (r : Returned) : (s.returning r).answers = s.answers := rfl
@[simp] theorem State.returning_draws (s : State) (r : Returned) : (s.returning r).draws = s.draws := rfl
@[simp] theorem State.returning_bufDraw (s : State) (r : Returned) : (s.returning r).bufDraw = s.bufDraw := rfl

/-! `State.returningOk` -/

@[simp] theorem State.returningOk_params (s : State) : (s.returningOk).params = s.params := rfl
@[simp] theorem State.returningOk_drv0 (s : State) : (s.returningOk).drv0 = s.drv0 := rfl
@[simp] theorem State.returningOk_drv1 (s : State) : (s.returningOk).drv1 = s.drv1 := rfl
@[simp] theorem State.returningOk_pendingTrackDelta (s : State) : (s.returningOk).pendingTrackDelta = s.pendingTrackDelta := rfl
@[simp] theorem State.returningOk_trackChangedFlag (s : State) : (s.returningOk).trackChangedFlag = s.trackChangedFlag := rfl
@[simp] theorem State.returningOk_selector (s : State) : (s.returningOk).selector = s.selector := rfl
@[simp] theorem State.returningOk_buf (s : State) : (s.returningOk).buf = s.buf := rfl
@[simp] theorem State.returningOk_crc (s : State) : (s.returningOk).crc = s.crc := rfl
@[simp] theorem State.returningOk_out (s : State) : (s.returningOk).out = s.out := rfl
@[simp] theorem State.returningOk_inp (s : State) : (s.returningOk).inp = s.inp := rfl
@[simp] theorem State.returningOk_pstore (s : State) : (s.returningOk).pstore = s.pstore := rfl
@[simp] theorem State.returningOk_vstore (s : State) : (s.returningOk).vstore = s.vstore := rfl
@[simp] theorem State.returningOk_reports (s : State) : (s.returningOk).reports = s.reports := rfl
@[simp] theorem State.returningOk_calls (s : State) : (s.returningOk).calls = s.calls := rfl
@[simp] theorem State.returningOk_result (s : State) : (s.returningOk).result = .status .ok := rfl
@[simp] theorem State.returningOk_busyWait (s : State) : (s.returningOk).busyWait = s.busyWait := rfl
@[simp] theorem State.returningOk_trace (s : State) : (s.returningOk).trace = s.trace := rfl
@[simp] theorem State.returningOk_answers (s : State) : (s.returningOk).answers = s.answers := rfl
@[simp] theorem State.returningOk_draws (s : State) : (s.returningOk).draws = s.draws := rfl
@[simp] theorem State.returningOk_bufDraw (s : State) : (s.returningOk).bufDraw = s.bufDraw := rfl

/-! `State.report` -/

@[simp] theorem State.report_params (s : State) (c : Status) (d : DriveId) (off st : Nat) : (s.report c d off st).params = s.params := rfl
@[simp] theorem State.report_drv0 (s : State) (c : Status) (d : DriveId) (off st : Nat) : (s.report c d off st).drv0 = s.drv0 := rfl
@[simp] theorem State.report_drv1 (s : State) (c : Status) (d : DriveId) (off st : Nat) : (s.report c d off st).drv1 = s.drv1 := rfl
@[simp] theorem State.report_pendingTrackDelta (s : State) (c : Status) (d : DriveId) (off st : Nat) : (s.report c d off st).pendingTrackDelta = s.pendingTrackDelta := rfl
@[simp] theorem State.report_trackChangedFlag (s : State) (c : Status) (d : DriveId) (off st : Nat) : (s.report c d off st).trackChangedFlag = s.trackChangedFlag := rfl
@[simp] theorem State.report_selector (s : State) (c : Status) (d : DriveId) (off st : Nat) : (s.report c d off st).selector = s.selector := rfl
@[simp] theorem State.report_buf (s : State) (c : Status) (d : DriveId) (off st : Nat) : (s.report c d off st).buf = s.buf := rfl
@[simp] theorem State.report_crc (s : State) (c : Status) (d : DriveId) (off st : Nat) : (s.report c d off st).crc = s.crc := rfl
@[simp] theorem State.report_out (s : State) (c : Status) (d : DriveId) (off st : Nat) : (s.report c d off st).out = s.out := rfl
@[simp] theorem State.report_inp (s : State) (c : Status) (d : DriveId) (off st : Nat) : (s.report c d off st).inp = s.inp := rfl
@[simp] theorem State.report_pstore (s : State) (c : Status) (d : DriveId) (off st : Nat) : (s.report c d off st).pstore = s.pstore := rfl
@[simp] theorem State.report_vstore (s : State) (c : Status) (d : DriveId) (off st : Nat) : (s.report c d off st).vstore = s.vstore := rfl
@[simp] theorem State.report_calls (s : State) (c : Status) (d : DriveId) (off st : Nat) : (s.report c d off st).calls = s.calls := rfl
@[simp] theorem State.report_result (s : State) (c : Status) (d : DriveId) (off st : Nat) : (s.report c d off st).result = s.result := rfl
@[simp] theorem State.report_busyWait (s : State) (c : Status) (d : DriveId) (off st : Nat) : (s.report c d off st).busyWait = s.busyWait := rfl
@[simp] theorem State.report_trace (s : State) (c : Status) (d : DriveId) (off st : Nat) : (s.report c d off st).trace = s.trace := rfl
@[simp] theorem State.report_answers (s : State) (c : Status) (d : DriveId) (off st : Nat) : (s.report c d off st).answers = s.answers := rfl
@[simp] theorem State.report_draws (s : State) (c : Status) (d : DriveId) (off st : Nat) : (s.report c d off st).draws = s.draws := rfl
@[simp] theorem State.report_bufDraw (s : State) (c : Status) (d : DriveId) (off st : Nat) : (s.report c d off st).bufDraw = s.bufDraw := rfl

/-! `State.call` -/

@[simp] theorem State.call_params (s : State) (c : Call) : (s.call c).params = s.params := rfl
@[simp] theorem State.call_drv0 (s : State) (c : Call) : (s.call c).drv0 = s.drv0 := rfl
@[simp] theorem State.call_drv1 (s : State) (c : Call) : (s.call c).drv1 = s.drv1 := rfl
@[simp] theorem State.call_pendingTrackDelta (s : State) (c : Call) : (s.call c).pendingTrackDelta = s.pendingTrackDelta := rfl
@[simp] theorem State.call_trackChangedFlag (s : State) (c : Call) : (s.call c).trackChangedFlag = s.trackChangedFlag := rfl
@[simp] theorem State.call_selector (s : State) (c : Call) : (s.call c).selector = s.selector := rfl
@[simp] theorem State.call_buf (s : State) (c : Call) : (s.call c).buf = s.buf := rfl
@[simp] theorem State.call_crc (s : State) (c : Call) : (s.call c).crc = s.crc := rfl
@[simp] theorem State.call_out (s : State) (c : Call) : (s.call c).out = s.out := rfl
@[simp] theorem State.call_inp (s : State) (c : Call) : (s.call c).inp = s.inp := rfl
@[simp] theorem State.call_pstore (s : State) (c : Call) : (s.call c).pstore = s.pstore := rfl
@[simp] theorem State.call_vstore (s : State) (c : Call) : (s.call c).vstore = s.vstore := rfl
@[simp] theorem State.call_reports (s : State) (c : Call) : (s.call c).reports = s.reports := rfl
@[simp] theorem State.call_calls (s : State) (c : Call) : (s.call c).calls = s.calls ++ [c] := rfl
@[simp] theorem State.call_result (s : State) (c : Call) : (s.call c).result = s.result := rfl
@[simp] theorem State.call_busyWait (s : State) (c : Call) : (s.call c).busyWait = s.busyWait := rfl
@[simp] theorem State.call_trace (s : State) (c : Call) : (s.call c).trace = s.trace := rfl
@[simp] theorem State.call_answers (s : State) (c : Call) : (s.call c).answers = s.answers := rfl
@[simp] theorem State.call_draws (s : State) (c : Call) : (s.call c).draws = s.draws := rfl
@[simp] theorem State.call_bufDraw (s : State) (c : Call) : (s.call c).bufDraw = s.bufDraw := rfl

/-! `State.tookAnswer` -/

@[simp] theorem State.tookAnswer_params (s : State) : (s.tookAnswer).params = s.params := rfl
@[simp] theorem State.tookAnswer_drv0 (s : State) : (s.tookAnswer).drv0 = s.drv0 := rfl
@[simp] theorem State.tookAnswer_drv1 (s : State) : (s.tookAnswer).drv1 = s.drv1 := rfl
@[simp] theorem State.tookAnswer_pendingTrackDelta (s : State) : (s.tookAnswer).pendingTrackDelta = s.pendingTrackDelta := rfl
@[simp] theorem State.tookAnswer_trackChangedFlag (s : State) : (s.tookAnswer).trackChangedFlag = s.trackChangedFlag := rfl
@[simp] theorem State.tookAnswer_selector (s : State) : (s.tookAnswer).selector = s.selector := rfl
@[simp] theorem State.tookAnswer_buf (s : State) : (s.tookAnswer).buf = s.buf := rfl
@[simp] theorem State.tookAnswer_crc (s : State) : (s.tookAnswer).crc = s.crc := rfl
@[simp] theorem State.tookAnswer_out (s : State) : (s.tookAnswer).out = s.out := rfl
@[simp] theorem State.tookAnswer_inp (s : State) : (s.tookAnswer).inp = s.inp := rfl
@[simp] theorem State.tookAnswer_pstore (s : State) : (s.tookAnswer).pstore = s.pstore := rfl
@[simp] theorem State.tookAnswer_vstore (s : State) : (s.tookAnswer).vstore = s.vstore := rfl
@[simp] theorem State.tookAnswer_reports (s : State) : (s.tookAnswer).reports = s.reports := rfl
@[simp] theorem State.tookAnswer_calls (s : State) : (s.tookAnswer).calls = s.calls := rfl
@[simp] theorem State.tookAnswer_result (s : State) : (s.tookAnswer).result = s.result := rfl
@[simp] theorem State.tookAnswer_busyWait (s : State) : (s.tookAnswer).busyWait = s.busyWait := rfl
@[simp] theorem State.tookAnswer_trace (s : State) : (s.tookAnswer).trace = s.trace := rfl
@[simp] theorem State.tookAnswer_answers (s : State) : (s.tookAnswer).answers = s.answers.tail := rfl
@[simp] theorem State.tookAnswer_draws (s : State) : (s.tookAnswer).draws = s.draws + 1 := rfl
@[simp] theorem State.tookAnswer_bufDraw (s : State) : (s.tookAnswer).bufDraw = s.bufDraw := rfl

/-! `State.crcBlock` -/

@[simp] theorem State.crcBlock_params (s : State) (off len : Nat) : (s.crcBlock off len).params = s.params := rfl
@[simp] theorem State.crcBlock_drv0 (s : State) (off len : Nat) : (s.crcBlock off len).drv0 = s.drv0 := rfl
@[simp] theorem State.crcBlock_drv1 (s : State) (off len : Nat) : (s.crcBlock off len).drv1 = s.drv1 := rfl
@[simp] theorem State.crcBlock_pendingTrackDelta (s : State) (off len : Nat) : (s.crcBlock off len).pendingTrackDelta = s.pendingTrackDelta := rfl
@[simp] theorem State.crcBlock_trackChangedFlag (s : State) (off len : Nat) : (s.crcBlock off len).trackChangedFlag = s.trackChangedFlag := rfl
@[simp] theorem State.crcBlock_selector (s : State) (off len : Nat) : (s.crcBlock off len).selector = s.selector := rfl
@[simp] theorem State.crcBlock_buf (s : State) (off len : Nat) : (s.crcBlock off len).buf = s.buf := rfl
@[simp] theorem State.crcBlock_crc (s : State) (off len : Nat) : (s.crcBlock off len).crc = crcBytes s.params.crcPoly s.params.crcInit (s.bufRange off len) := rfl
@[simp] theorem State.crcBlock_out (s : State) (off len : Nat) : (s.crcBlock off len).out = s.out := rfl
@[simp] theorem State.crcBlock_inp (s : State) (off len : Nat) : (s.crcBlock off len).inp = s.inp := rfl
@[simp] theorem State.crcBlock_pstore (s : State) (off len : Nat) : (s.crcBlock off len).pstore = s.pstore := rfl
@[simp] theorem State.crcBlock_vstore (s : State) (off len : Nat) : (s.crcBlock off len).vstore = s.vstore := rfl
@[simp] theorem State.crcBlock_reports (s : State) (off len : Nat) : (s.crcBlock off len).reports = s.reports := rfl
@[simp] theorem State.crcBlock_calls (s : State) (off len : Nat) : (s.crcBlock off len).calls = s.calls := rfl
@[simp] theorem State.crcBlock_result (s : State) (off len : Nat) : (s.crcBlock off len).result = s.result := rfl
@[simp] theorem State.crcBlock_busyWait (s : State) (off len : Nat) : (s.crcBlock off len).busyWait = s.busyWait := rfl
@[simp] theorem State.crcBlock_trace (s : State) (off len : Nat) : (s.crcBlock off len).trace = s.trace := rfl
@[simp] theorem State.crcBlock_answers (s : State) (off len : Nat) : (s.crcBlock off len).answers = s.answers := rfl
@[simp] theorem State.crcBlock_draws (s : State) (off len : Nat) : (s.crcBlock off len).draws = s.draws := rfl
@[simp] theorem State.crcBlock_bufDraw (s : State) (off len : Nat) : (s.crcBlock off len).bufDraw = s.bufDraw := rfl

/-! `State.crcPut` -/

@[simp] theorem State.crcPut_params (s : State) (off : Nat) : (s.crcPut off).params = s.params := rfl
@[simp] theorem State.crcPut_drv0 (s : State) (off : Nat) : (s.crcPut off).drv0 = s.drv0 := rfl
@[simp] theorem State.crcPut_drv1 (s : State) (off : Nat) : (s.crcPut off).drv1 = s.drv1 := rfl
@[simp] theorem State.crcPut_pendingTrackDelta (s : State) (off : Nat) : (s.crcPut off).pendingTrackDelta = s.pendingTrackDelta := rfl
@[simp] theorem State.crcPut_trackChangedFlag (s : State) (off : Nat) : (s.crcPut off).trackChangedFlag = s.trackChangedFlag := rfl
@[simp] theorem State.crcPut_selector (s : State) (off : Nat) : (s.crcPut off).selector = s.selector := rfl
@[simp] theorem State.crcPut_buf (s : State) (off : Nat) : (s.crcPut off).buf = s.buf.writeBlock off [hi8 s.crc, lo8 s.crc] := rfl
@[simp] theorem State.crcPut_crc (s : State) (off : Nat) : (s.crcPut off).crc = s.crc := rfl
@[simp] theorem State.crcPut_out (s : State) (off : Nat) : (s.crcPut off).out = s.out := rfl
@[simp] theorem State.crcPut_inp (s : State) (off : Nat) : (s.crcPut off).inp = s.inp := rfl
@[simp] theorem State.crcPut_pstore (s : State) (off : Nat) : (s.crcPut off).pstore = s.pstore := rfl
@[simp] theorem State.crcPut_vstore (s : State) (off : Nat) : (s.crcPut off).vstore = s.vstore := rfl
@[simp] theorem State.crcPut_reports (s : State) (off : Nat) : (s.crcPut off).reports = s.reports := rfl
@[simp] theorem State.crcPut_calls (s : State) (off : Nat) : (s.crcPut off).calls = s.calls := rfl
@[simp] theorem State.crcPut_result (s : State) (off : Nat) : (s.crcPut off).result = s.result := rfl
@[simp] theorem State.crcPut_busyWait (s : State) (off : Nat) : (s.crcPut off).busyWait = s.busyWait := rfl
@[simp] theorem State.crcPut_trace (s : State) (off : Nat) : (s.crcPut off).trace = s.trace := rfl
@[simp] theorem State.crcPut_answers (s : State) (off : Nat) : (s.crcPut off).answers = s.answers := rfl
@[simp] theorem State.crcPut_draws (s : State) (off : Nat) : (s.crcPut off).draws = s.draws := rfl
@[simp] theorem State.crcPut_bufDraw (s : State) (off : Nat) : (s.crcPut off).bufDraw = s.bufDraw := rfl

/-! `State.copyBuf` -/

@[simp] theorem State.copyBuf_params (s : State) (dst src len : Nat) : (s.copyBuf dst src len).params = s.params := rfl
@[simp] theorem State.copyBuf_drv0 (s : State) (dst src len : Nat) : (s.copyBuf dst src len).drv0 = s.drv0 := rfl
@[simp] theorem State.copyBuf_drv1 (s : State) (dst src len : Nat) : (s.copyBuf dst src len).drv1 = s.drv1 := rfl
@[simp] theorem State.copyBuf_pendingTrackDelta (s : State) (dst src len : Nat) : (s.copyBuf dst src len).pendingTrackDelta = s.pendingTrackDelta := rfl
@[simp] theorem State.copyBuf_trackChangedFlag (s : State) (dst src len : Nat) : (s.copyBuf dst src len).trackChangedFlag = s.trackChangedFlag := rfl
@[simp] theorem State.copyBuf_selector (s : State) (dst src len : Nat) : (s.copyBuf dst src len).selector = s.selector := rfl
@[simp] theorem State.copyBuf_buf (s : State) (dst src len : Nat) : (s.copyBuf dst src len).buf = s.buf.writeBlock dst (s.bufRange src len) := rfl
@[simp] theorem State.copyBuf_crc (s : State) (dst src len : Nat) : (s.copyBuf dst src len).crc = s.crc := rfl
@[simp] theorem State.copyBuf_out (s : State) (dst src len : Nat) : (s.copyBuf dst src len).out = s.out := rfl
@[simp] theorem State.copyBuf_inp (s : State) (dst src len : Nat) : (s.copyBuf dst src len).inp = s.inp := rfl
@[simp] theorem State.copyBuf_pstore (s : State) (dst src len : Nat) : (s.copyBuf dst src len).pstore = s.pstore := rfl
@[simp] theorem State.copyBuf_vstore (s : State) (dst src len : Nat) : (s.copyBuf dst src len).vstore = s.vstore := rfl
@[simp] theorem State.copyBuf_reports (s : State) (dst src len : Nat) : (s.copyBuf dst src len).reports = s.reports := rfl
@[simp] theorem State.copyBuf_calls (s : State) (dst src len : Nat) : (s.copyBuf dst src len).calls = s.calls := rfl
@[simp] theorem State.copyBuf_result (s : State) (dst src len : Nat) : (s.copyBuf dst src len).result = s.result := rfl
@[simp] theorem State.copyBuf_busyWait (s : State) (dst src len : Nat) : (s.copyBuf dst src len).busyWait = s.busyWait := rfl
@[simp] theorem State.copyBuf_trace (s : State) (dst src len : Nat) : (s.copyBuf dst src len).trace = s.trace := rfl
@[simp] theorem State.copyBuf_answers (s : State) (dst src len : Nat) : (s.copyBuf dst src len).answers = s.answers := rfl
@[simp] theorem State.copyBuf_draws (s : State) (dst src len : Nat) : (s.copyBuf dst src len).draws = s.draws := rfl
@[simp] theorem State.copyBuf_bufDraw (s : State) (dst src len : Nat) : (s.copyBuf dst src len).bufDraw = s.bufDraw := rfl

/-! `State.waiting` -/

@[simp] theorem State.waiting_params (s : State) (i : Instr) : (s.waiting i).params = s.params := rfl
@[simp] theorem State.waiting_drv0 (s : State) (i : Instr) : (s.waiting i).drv0 = s.drv0 := rfl
@[simp] theorem State.waiting_drv1 (s : State) (i : Instr) : (s.waiting i).drv1 = s.drv1 := rfl
@[simp] theorem State.waiting_pendingTrackDelta (s : State) (i : Instr) : (s.waiting i).pendingTrackDelta = s.pendingTrackDelta := rfl
@[simp] theorem State.waiting_trackChangedFlag (s : State) (i : Instr) : (s.waiting i).trackChangedFlag = s.trackChangedFlag := rfl
@[simp] theorem State.waiting_selector (s : State) (i : Instr) : (s.waiting i).selector = s.selector := rfl
@[simp] theorem State.waiting_buf (s : State) (i : Instr) : (s.waiting i).buf = s.buf := rfl
@[simp] theorem State.waiting_crc (s : State) (i : Instr) : (s.waiting i).crc = s.crc := rfl
@[simp] theorem State.waiting_out (s : State) (i : Instr) : (s.waiting i).out = s.out := rfl
@[simp] theorem State.waiting_inp (s : State) (i : Instr) : (s.waiting i).inp = s.inp := rfl
@[simp] theorem State.waiting_pstore (s : State) (i : Instr) : (s.waiting i).pstore = s.pstore := rfl
@[simp] theorem State.waiting_vstore (s : State) (i : Instr) : (s.waiting i).vstore = s.vstore := rfl
@[simp] theorem State.waiting_reports (s : State) (i : Instr) : (s.waiting i).reports = s.reports := rfl
@[simp] theorem State.waiting_calls (s : State) (i : Instr) : (s.waiting i).calls = s.calls := rfl
@[simp] theorem State.waiting_result (s : State) (i : Instr) : (s.waiting i).result = s.result := rfl
@[simp] theorem State.waiting_busyWait (s : State) (i : Instr) : (s.waiting i).busyWait = some i := rfl
@[simp] theorem State.waiting_trace (s : State) (i : Instr) : (s.waiting i).trace = s.trace := rfl
@[simp] theorem State.waiting_answers (s : State) (i : Instr) : (s.waiting i).answers = s.answers := rfl
@[simp] theorem State.waiting_draws (s : State) (i : Instr) : (s.waiting i).draws = s.draws := rfl
@[simp] theorem State.waiting_bufDraw (s : State) (i : Instr) : (s.waiting i).bufDraw = s.bufDraw := rfl

/-! `drv[d]` through the updates -/

@[simp] theorem pick_self {α : Type} (d : DriveId) (a : α) : d.pick a a = a := by cases d <;> rfl

@[simp] theorem State.drv_setDrv (s : State) (d : DriveId) (x : Drive) : (s.setDrv d x).drv d = x := by cases d <;> rfl

/-- Writing one drive leaves the other. -/
theorem State.drv_setDrv_other (s : State) (d e : DriveId) (x : Drive) (h : e ≠ d) : (s.setDrv d x).drv e = s.drv e := by
  cases d <;> cases e <;> first | rfl | exact absurd rfl h

/-- Writing a drive's own value changes nothing. -/
@[simp] theorem State.setDrv_drv (s : State) (d : DriveId) : s.setDrv d (s.drv d) = s := by cases d <;> rfl

@[simp] theorem State.drv_setStep (s : State) (d : DriveId) (t : SeqStep) :
    (s.setStep d t).drv d = { s.drv d with step := t } := by cases d <;> rfl

/-- The drives are the same in two states that agree on both. -/
theorem State.drv_congr (s t : State) (h0 : t.drv0 = s.drv0) (h1 : t.drv1 = s.drv1) (d : DriveId) : t.drv d = s.drv d := by
  cases d <;> simp [State.drv, DriveId.pick, h0, h1]

@[simp] theorem State.putBuf_drv (s : State) (off : Nat) (bs : List Byte) (d : DriveId) : (s.putBuf off bs).drv d = s.drv d := rfl
@[simp] theorem State.putBuf_vdisk (s : State) (off : Nat) (bs : List Byte) (d : DriveId) : (s.putBuf off bs).vdisk d = s.vdisk d := rfl
@[simp] theorem State.returning_drv (s : State) (r : Returned) (d : DriveId) : (s.returning r).drv d = s.drv d := rfl
@[simp] theorem State.returning_vdisk (s : State) (r : Returned) (d : DriveId) : (s.returning r).vdisk d = s.vdisk d := rfl
@[simp] theorem State.returningOk_drv (s : State) (d : DriveId) : (s.returningOk).drv d = s.drv d := rfl
@[simp] theorem State.returningOk_vdisk (s : State) (d : DriveId) : (s.returningOk).vdisk d = s.vdisk d := rfl
@[simp] theorem State.report_drv (s : State) (c : Status) (e : DriveId) (off st : Nat) (d : DriveId) : (s.report c e off st).drv d = s.drv d := rfl
@[simp] theorem State.report_vdisk (s : State) (c : Status) (e : DriveId) (off st : Nat) (d : DriveId) : (s.report c e off st).vdisk d = s.vdisk d := rfl
@[simp] theorem State.call_drv (s : State) (c : Call) (d : DriveId) : (s.call c).drv d = s.drv d := rfl
@[simp] theorem State.call_vdisk (s : State) (c : Call) (d : DriveId) : (s.call c).vdisk d = s.vdisk d := rfl
@[simp] theorem State.tookAnswer_drv (s : State) (d : DriveId) : (s.tookAnswer).drv d = s.drv d := rfl
@[simp] theorem State.tookAnswer_vdisk (s : State) (d : DriveId) : (s.tookAnswer).vdisk d = s.vdisk d := rfl
@[simp] theorem State.crcBlock_drv (s : State) (off len : Nat) (d : DriveId) : (s.crcBlock off len).drv d = s.drv d := rfl
@[simp] theorem State.crcBlock_vdisk (s : State) (off len : Nat) (d : DriveId) : (s.crcBlock off len).vdisk d = s.vdisk d := rfl
@[simp] theorem State.crcPut_drv (s : State) (off : Nat) (d : DriveId) : (s.crcPut off).drv d = s.drv d := rfl
@[simp] theorem State.crcPut_vdisk (s : State) (off : Nat) (d : DriveId) : (s.crcPut off).vdisk d = s.vdisk d := rfl
@[simp] theorem State.copyBuf_drv (s : State) (dst src len : Nat) (d : DriveId) : (s.copyBuf dst src len).drv d = s.drv d := rfl
@[simp] theorem State.copyBuf_vdisk (s : State) (dst src len : Nat) (d : DriveId) : (s.copyBuf dst src len).vdisk d = s.vdisk d := rfl
@[simp] theorem State.waiting_drv (s : State) (i : Instr) (d : DriveId) : (s.waiting i).drv d = s.drv d := rfl
@[simp] theorem State.waiting_vdisk (s : State) (i : Instr) (d : DriveId) : (s.waiting i).vdisk d = s.vdisk d := rfl

/-! Buffer and store reads through the updates that do not write them -/

@[simp] theorem State.putBuf_storeByte (s : State) (off : Nat) (bs : List Byte) (sp : Space) (a : Nat) : (s.putBuf off bs).storeByte sp a = s.storeByte sp a := by
  cases sp <;> rfl
@[simp] theorem State.setDrv_bufByte (s : State) (d : DriveId) (x : Drive) (a : Nat) : (s.setDrv d x).bufByte a = s.bufByte a := rfl
@[simp] theorem State.setDrv_bufRange (s : State) (d : DriveId) (x : Drive) (o l : Nat) : (s.setDrv d x).bufRange o l = s.bufRange o l := rfl
@[simp] theorem State.setDrv_storeByte (s : State) (d : DriveId) (x : Drive) (sp : Space) (a : Nat) : (s.setDrv d x).storeByte sp a = s.storeByte sp a := by
  cases sp <;> rfl
@[simp] theorem State.setStep_bufByte (s : State) (d : DriveId) (t : SeqStep) (a : Nat) : (s.setStep d t).bufByte a = s.bufByte a := rfl
@[simp] theorem State.setStep_bufRange (s : State) (d : DriveId) (t : SeqStep) (o l : Nat) : (s.setStep d t).bufRange o l = s.bufRange o l := rfl
@[simp] theorem State.setStep_storeByte (s : State) (d : DriveId) (t : SeqStep) (sp : Space) (a : Nat) : (s.setStep d t).storeByte sp a = s.storeByte sp a := by
  cases sp <;> rfl
@[simp] theorem State.returning_bufByte (s : State) (r : Returned) (a : Nat) : (s.returning r).bufByte a = s.bufByte a := rfl
@[simp] theorem State.returning_bufRange (s : State) (r : Returned) (o l : Nat) : (s.returning r).bufRange o l = s.bufRange o l := rfl
@[simp] theorem State.returning_storeByte (s : State) (r : Returned) (sp : Space) (a : Nat) : (s.returning r).storeByte sp a = s.storeByte sp a := by
  cases sp <;> rfl
@[simp] theorem State.returningOk_bufByte (s : State) (a : Nat) : (s.returningOk).bufByte a = s.bufByte a := rfl
@[simp] theorem State.returningOk_bufRange (s : State) (o l : Nat) : (s.returningOk).bufRange o l = s.bufRange o l := rfl
@[simp] theorem State.returningOk_storeByte (s : State) (sp : Space) (a : Nat) : (s.returningOk).storeByte sp a = s.storeByte sp a := by
  cases sp <;> rfl
@[simp] theorem State.report_bufByte (s : State) (c : Status) (d : DriveId) (off st : Nat) (a : Nat) : (s.report c d off st).bufByte a = s.bufByte a := rfl
@[simp] theorem State.report_bufRange (s : State) (c : Status) (d : DriveId) (off st : Nat) (o l : Nat) : (s.report c d off st).bufRange o l = s.bufRange o l := rfl
@[simp] theorem State.report_storeByte (s : State) (c : Status) (d : DriveId) (off st : Nat) (sp : Space) (a : Nat) : (s.report c d off st).storeByte sp a = s.storeByte sp a := by
  cases sp <;> rfl
@[simp] theorem State.call_bufByte (s : State) (c : Call) (a : Nat) : (s.call c).bufByte a = s.bufByte a := rfl
@[simp] theorem State.call_bufRange (s : State) (c : Call) (o l : Nat) : (s.call c).bufRange o l = s.bufRange o l := rfl
@[simp] theorem State.call_storeByte (s : State) (c : Call) (sp : Space) (a : Nat) : (s.call c).storeByte sp a = s.storeByte sp a := by
  cases sp <;> rfl
@[simp] theorem State.tookAnswer_bufByte (s : State) (a : Nat) : (s.tookAnswer).bufByte a = s.bufByte a := rfl
@[simp] theorem State.tookAnswer_bufRange (s : State) (o l : Nat) : (s.tookAnswer).bufRange o l = s.bufRange o l := rfl
@[simp] theorem State.tookAnswer_storeByte (s : State) (sp : Space) (a : Nat) : (s.tookAnswer).storeByte sp a = s.storeByte sp a := by
  cases sp <;> rfl
@[simp] theorem State.crcBlock_bufByte (s : State) (off len : Nat) (a : Nat) : (s.crcBlock off len).bufByte a = s.bufByte a := rfl
@[simp] theorem State.crcBlock_bufRange (s : State) (off len : Nat) (o l : Nat) : (s.crcBlock off len).bufRange o l = s.bufRange o l := rfl
@[simp] theorem State.crcBlock_storeByte (s : State) (off len : Nat) (sp : Space) (a : Nat) : (s.crcBlock off len).storeByte sp a = s.storeByte sp a := by
  cases sp <;> rfl
@[simp] theorem State.crcPut_storeByte (s : State) (off : Nat) (sp : Space) (a : Nat) : (s.crcPut off).storeByte sp a = s.storeByte sp a := by
  cases sp <;> rfl
@[simp] theorem State.copyBuf_storeByte (s : State) (dst src len : Nat) (sp : Space) (a : Nat) : (s.copyBuf dst src len).storeByte sp a = s.storeByte sp a := by
  cases sp <;> rfl
@[simp] theorem State.waiting_bufByte (s : State) (i : Instr) (a : Nat) : (s.waiting i).bufByte a = s.bufByte a := rfl
@[simp] theorem State.waiting_bufRange (s : State) (i : Instr) (o l : Nat) : (s.waiting i).bufRange o l = s.bufRange o l := rfl
@[simp] theorem State.waiting_storeByte (s : State) (i : Instr) (sp : Space) (a : Nat) : (s.waiting i).storeByte sp a = s.storeByte sp a := by
  cases sp <;> rfl

/-! ## The running drive (R143, R154) -/

@[simp] theorem State.foundRunning_params (s : State) : s.foundRunning.params = s.params := rfl
@[simp] theorem State.foundRunning_drv0 (s : State) : s.foundRunning.drv0 = s.drv0 := rfl
@[simp] theorem State.foundRunning_drv1 (s : State) : s.foundRunning.drv1 = s.drv1 := rfl
@[simp] theorem State.foundRunning_pendingTrackDelta (s : State) : s.foundRunning.pendingTrackDelta = s.pendingTrackDelta := rfl
@[simp] theorem State.foundRunning_trackChangedFlag (s : State) : s.foundRunning.trackChangedFlag = s.trackChangedFlag := rfl
@[simp] theorem State.foundRunning_selector (s : State) : s.foundRunning.selector = s.selector := rfl
@[simp] theorem State.foundRunning_buf (s : State) : s.foundRunning.buf = s.buf := rfl
@[simp] theorem State.foundRunning_crc (s : State) : s.foundRunning.crc = s.crc := rfl
@[simp] theorem State.foundRunning_out (s : State) : s.foundRunning.out = s.out := rfl
@[simp] theorem State.foundRunning_inp (s : State) : s.foundRunning.inp = s.inp := rfl
@[simp] theorem State.foundRunning_pstore (s : State) : s.foundRunning.pstore = s.pstore := rfl
@[simp] theorem State.foundRunning_vstore (s : State) : s.foundRunning.vstore = s.vstore := rfl
@[simp] theorem State.foundRunning_reports (s : State) : s.foundRunning.reports = s.reports := rfl
@[simp] theorem State.foundRunning_calls (s : State) : s.foundRunning.calls = s.calls := rfl
@[simp] theorem State.foundRunning_result (s : State) : s.foundRunning.result = s.result := rfl
@[simp] theorem State.foundRunning_busyWait (s : State) : s.foundRunning.busyWait = s.busyWait := rfl
@[simp] theorem State.foundRunning_trace (s : State) : s.foundRunning.trace = s.trace := rfl
@[simp] theorem State.foundRunning_answers (s : State) : s.foundRunning.answers = s.answers := rfl
@[simp] theorem State.foundRunning_bufDraw (s : State) : s.foundRunning.bufDraw = s.bufDraw := rfl
@[simp] theorem State.foundRunning_draws (s : State) : s.foundRunning.draws = if s.allIdle then s.draws + 1 else s.draws := rfl
@[simp] theorem State.foundRunning_drv (s : State) (d : DriveId) : s.foundRunning.drv d = s.drv d := rfl
@[simp] theorem State.foundRunning_bufByte (s : State) (a : Nat) : s.foundRunning.bufByte a = s.bufByte a := rfl
@[simp] theorem State.foundRunning_bufRange (s : State) (a l : Nat) : s.foundRunning.bufRange a l = s.bufRange a l := rfl

end Sys2Proof.Machine
end

