-- ==== Sys2Proof/Laws/Memory.lean ====
section
/-!
SUPPORT. What a memory read gives after a block write, and that a block write keeps the canonical form and the address bound.
-/

namespace Sys2Proof.Machine

@[simp] theorem Memory.lookup_nil (a : Nat) : Memory.lookup [] a = none := rfl

/-- The first memory answers before the second. -/
theorem Memory.lookup_append (m n : Memory) (a : Nat) :
    Memory.lookup (m ++ n) a = (Memory.lookup m a).or (Memory.lookup n a) := by
  induction m with
  | nil => simp
  | cons c m ih =>
    obtain ⟨k, b⟩ := c
    by_cases h : k = a <;> simp [Memory.lookup, h, ih]

/-- Filtering the cells by their addresses keeps the ones that pass. -/
theorem Memory.lookup_filter (m : Memory) (p : Nat → Bool) (a : Nat) :
    Memory.lookup (m.filter fun c => p c.1) a = if p a then Memory.lookup m a else none := by
  induction m with
  | nil => simp
  | cons c m ih =>
    obtain ⟨k, b⟩ := c
    by_cases hp : p k = true
    · by_cases h : k = a
      · subst h; simp [Memory.lookup, hp]
      · simp [Memory.lookup, hp, h, ih]
    · by_cases h : k = a
      · subst h; simp [hp, ih]
      · simp [Memory.lookup, hp, h, ih]

/-- A run of cells holds its bytes and nothing else. -/
theorem Memory.lookup_cellsFrom (base : Nat) (bs : List Byte) (a : Nat) :
    Memory.lookup (Memory.cellsFrom base bs) a = if base ≤ a then bs[a - base]? else none := by
  induction bs generalizing base with
  | nil => simp [Memory.cellsFrom]
  | cons b bs ih =>
    by_cases h : base = a
    · subst h; simp [Memory.cellsFrom, Memory.lookup]
    · simp only [Memory.cellsFrom, Memory.lookup, h, if_false, ih]
      by_cases hle : base ≤ a
      · have h1 : base + 1 ≤ a := by omega
        have h2 : a - base = (a - (base + 1)) + 1 := by omega
        simp [hle, h1, h2]
      · have h1 : ¬ base + 1 ≤ a := by omega
        simp [hle, h1]

/-- Read after write, whole: inside the run its byte, outside the old one. -/
theorem Memory.lookup_writeBlock (m : Memory) (base : Nat) (bs : List Byte) (a : Nat) :
    (m.writeBlock base bs).lookup a
      = if base ≤ a ∧ a < base + bs.length then bs[a - base]? else m.lookup a := by
  unfold Memory.writeBlock
  rw [Memory.lookup_append, Memory.lookup_append, Memory.lookup_cellsFrom,
    Memory.lookup_filter m (fun k => decide (k < base)), Memory.lookup_filter m (fun k => decide (base + bs.length ≤ k))]
  by_cases h1 : a < base
  · have h2 : ¬ base ≤ a := by omega
    have h3 : ¬ base + bs.length ≤ a := by omega
    simp [h1, h2, h3]
  · by_cases h3 : base + bs.length ≤ a
    · have h2 : ¬ a < base + bs.length := by omega
      have h4 : bs[a - base]? = none := by rw [List.getElem?_eq_none_iff]; omega
      have h5 : base ≤ a := by omega
      simp [h1, h3, h2, h4, h5]
    · have h2 : a < base + bs.length := by omega
      have h5 : base ≤ a := by omega
      have h6 : a - base < bs.length := by omega
      simp [h1, h2, h5, h6]

/-- The addresses of a run. -/
theorem Memory.mem_cellsFrom (base : Nat) (bs : List Byte) (c : Host.Cell) (h : c ∈ Memory.cellsFrom base bs) :
    base ≤ c.1 ∧ c.1 < base + bs.length := by
  induction bs generalizing base with
  | nil => simp [Memory.cellsFrom] at h
  | cons b bs ih =>
    simp only [Memory.cellsFrom, List.mem_cons] at h
    rcases h with rfl | h
    · simp
    · have := ih (base + 1) h
      simp only [List.length_cons]; omega

/-- A run is canonical. -/
theorem Memory.wf_cellsFrom (base : Nat) (bs : List Byte) : (Memory.cellsFrom base bs).wf := by
  induction bs generalizing base with
  | nil => simp [Memory.cellsFrom, Memory.wf]
  | cons b bs ih =>
    simp only [Memory.cellsFrom, Memory.wf, List.pairwise_cons]
    exact ⟨fun c hc => (Memory.mem_cellsFrom _ _ c hc).1, ih (base + 1)⟩

/-- A block write keeps the canonical form. -/
theorem Memory.wf_writeBlock (m : Memory) (base : Nat) (bs : List Byte) (h : m.wf) : (m.writeBlock base bs).wf := by
  unfold Memory.writeBlock Memory.wf
  rw [List.pairwise_append, List.pairwise_append]
  refine ⟨⟨h.filter _, Memory.wf_cellsFrom base bs, ?_⟩, h.filter _, ?_⟩
  · intro x hx y hy
    have h1 := of_decide_eq_true (List.mem_filter.1 hx).2
    have h2 := (Memory.mem_cellsFrom _ _ y hy).1
    omega
  · intro x hx y hy
    have h2 := of_decide_eq_true (List.mem_filter.1 hy).2
    rcases List.mem_append.1 hx with hx | hx
    · have h1 := of_decide_eq_true (List.mem_filter.1 hx).2
      omega
    · have h1 := (Memory.mem_cellsFrom _ _ x hx).2
      omega

/-- A block write inside the address space stays inside it. -/
theorem Memory.bound_writeBlock (m : Memory) (base : Nat) (bs : List Byte) (size : Nat) (h : ∀ c ∈ m, c.1 < size)
    (hb : base + bs.length ≤ size) : ∀ c ∈ m.writeBlock base bs, c.1 < size := by
  intro c hc
  unfold Memory.writeBlock at hc
  rcases List.mem_append.1 hc with hc | hc
  · rcases List.mem_append.1 hc with hc | hc
    · exact h c (List.mem_filter.1 hc).1
    · have := (Memory.mem_cellsFrom _ _ c hc).2
      omega
  · exact h c (List.mem_filter.1 hc).1

/-- A block write inside the address space keeps the memory canonical and inside it. -/
theorem Memory.fits_writeBlock (m : Memory) (base : Nat) (bs : List Byte) (size : Nat) (h : m.fits size)
    (hb : base + bs.length ≤ size) : (m.writeBlock base bs).fits size :=
  ⟨Memory.wf_writeBlock m base bs h.1, Memory.bound_writeBlock m base bs size h.2 hb⟩

/-! ## The Sector Data Buffer -/

@[simp] theorem State.length_bufRange (s : State) (off len : Nat) : (s.bufRange off len).length = len := by
  simp [State.bufRange]

/-- Two states with the same buffer contents and the same source of free bytes read alike. -/
theorem State.bufByte_congr (s t : State) (hb : t.buf = s.buf) (hd : t.bufDraw = s.bufDraw) (a : Nat) :
    t.bufByte a = s.bufByte a := by simp [State.bufByte, hb, hd]

theorem State.bufRange_congr (s t : State) (hb : t.buf = s.buf) (hd : t.bufDraw = s.bufDraw) (off len : Nat) :
    t.bufRange off len = s.bufRange off len := by
  simp [State.bufRange, State.bufByte_congr s t hb hd]

/-- Reading a byte after a run is written. -/
theorem State.bufByte_putBuf (s : State) (off : Nat) (bs : List Byte) (a : Nat) :
    (s.putBuf off bs).bufByte a
      = if h : off ≤ a ∧ a < off + bs.length then bs[a - off]'(by omega) else s.bufByte a := by
  unfold State.bufByte
  rw [State.putBuf_buf, Memory.lookup_writeBlock]
  by_cases h : off ≤ a ∧ a < off + bs.length
  · have h6 : a - off < bs.length := by omega
    simp [h, List.getElem?_eq_getElem h6]
  · simp [h]

/-- Outside the written run a byte reads as before. -/
theorem State.bufByte_putBuf_outside (s : State) (off : Nat) (bs : List Byte) (a : Nat)
    (h : a < off ∨ off + bs.length ≤ a) : (s.putBuf off bs).bufByte a = s.bufByte a := by
  rw [State.bufByte_putBuf, dif_neg (by omega)]

/-- Inside the written run a byte reads as written. -/
theorem State.bufByte_putBuf_inside (s : State) (off : Nat) (bs : List Byte) (k : Nat) (h : k < bs.length) :
    (s.putBuf off bs).bufByte (off + k) = bs[k] := by
  rw [State.bufByte_putBuf, dif_pos (by omega)]
  simp

/-- A range apart from the written run reads as before. -/
theorem State.bufRange_putBuf_outside (s : State) (off : Nat) (bs : List Byte) (o l : Nat)
    (h : o + l ≤ off ∨ off + bs.length ≤ o) : (s.putBuf off bs).bufRange o l = s.bufRange o l := by
  unfold State.bufRange
  refine List.map_congr_left fun k hk => ?_
  have := List.mem_range.1 hk
  exact State.bufByte_putBuf_outside s off bs _ (by omega)

/-- The written run reads as written. -/
theorem State.bufRange_putBuf_same (s : State) (off : Nat) (bs : List Byte) :
    (s.putBuf off bs).bufRange off bs.length = bs := by
  refine List.ext_getElem (by simp) fun k h1 h2 => ?_
  simp only [State.bufRange, List.getElem_map, List.getElem_range]
  exact State.bufByte_putBuf_inside s off bs k h2

/-- A range is the range of its first part and the range of its second. -/
theorem State.bufRange_append (s : State) (off l m : Nat) :
    s.bufRange off (l + m) = s.bufRange off l ++ s.bufRange (off + l) m := by
  unfold State.bufRange
  rw [List.range_add, List.map_append, List.map_map]
  congr 1
  refine List.map_congr_left fun k _ => ?_
  simp [Nat.add_assoc]

/-- The first byte of a range and the rest. -/
theorem State.bufRange_succ (s : State) (off l : Nat) :
    s.bufRange off (l + 1) = s.bufByte off :: s.bufRange (off + 1) l := by
  rw [Nat.add_comm, State.bufRange_append]
  simp [State.bufRange, List.range_succ]

@[simp] theorem State.bufRange_zero (s : State) (off : Nat) : s.bufRange off 0 = [] := rfl

/-- A byte of a range. -/
theorem State.getElem_bufRange (s : State) (off len k : Nat) (h : k < (s.bufRange off len).length) :
    (s.bufRange off len)[k] = s.bufByte (off + k) := by simp [State.bufRange]

/-! ## The stores -/

/-- Reading a store byte after a run of the same store is written. -/
theorem State.storeByte_putStore (s : State) (sp : Space) (off : Nat) (bs : List Byte) (a : Nat) :
    (s.putStore sp off bs).storeByte sp a
      = if h : off ≤ a ∧ a < off + bs.length then bs[a - off]'(by omega) else s.storeByte sp a := by
  have key : ∀ m : Memory, (m.writeBlock off bs).lookup a
      = if off ≤ a ∧ a < off + bs.length then bs[a - off]? else m.lookup a :=
    fun m => Memory.lookup_writeBlock m off bs a
  by_cases h : off ≤ a ∧ a < off + bs.length
  · have h6 : a - off < bs.length := by omega
    cases sp <;> simp [State.storeByte, State.store, State.putStore, key, h, List.getElem?_eq_getElem h6]
  · cases sp <;> simp [State.storeByte, State.store, State.putStore, key, h]

/-- Writing one store leaves the other. -/
theorem State.storeByte_putStore_other (s : State) (sp sq : Space) (off : Nat) (bs : List Byte) (a : Nat) (h : sq ≠ sp) :
    (s.putStore sp off bs).storeByte sq a = s.storeByte sq a := by
  cases sp <;> cases sq <;> first | rfl | exact absurd rfl h

@[simp] theorem State.length_slotBytes (s : State) (sp : Space) (i : Nat) : (s.slotBytes sp i).length = slotSize := by
  simp [State.slotBytes]

theorem State.getElem_slotBytes (s : State) (sp : Space) (i k : Nat) (h : k < (s.slotBytes sp i).length) :
    (s.slotBytes sp i)[k] = s.storeByte sp (slotSize * i + k) := by simp [State.slotBytes]

end Sys2Proof.Machine
end

