-- ==== Sys2Proof/Laws/Ops.lean ====
section
/-!
SUPPORT. What the guards, the tests and the composition of outcomes say, and one spec lemma for each shared operation over a store
slot. Later proofs cite these and unfold none of them.
-/

namespace Sys2Proof.Machine

/-! ## Guards -/

theorem onDrive_has (d : DriveId) (s : State) (k : Outcome State) (h : s.params.hasDrive d = true) : onDrive d s k = k := by
  simp [onDrive, h]

theorem State.other_eq (s : State) (d e : DriveId) (h : e ≠ d) : s.other d = s.drv e := by
  cases d <;> cases e <;> first | rfl | exact absurd rfl h

theorem onSequencer_has (d : DriveId) (s : State) (k : Outcome State) (h : s.params.hasDrive d = true) (ho : (s.other d).step = .idle) :
    onSequencer d s k = k := by
  rw [onSequencer, onDrive_has d s _ h, if_pos ho]

/-- While the other drive is Selected nothing happens (R44, R279). -/
theorem onSequencer_other (d : DriveId) (s : State) (k : Outcome State) (h : s.params.hasDrive d = true) (ho : (s.other d).step ≠ .idle) :
    onSequencer d s k = .next s := by
  rw [onSequencer, onDrive_has d s _ h, if_neg ho]

theorem onDrive_next (d : DriveId) (s t : State) (k : Outcome State) :
    onDrive d s k = .next t ↔ s.params.hasDrive d = true ∧ k = .next t := by
  by_cases h : s.params.hasDrive d = true <;> simp [onDrive, h]

theorem onSequencer_next (d : DriveId) (s t : State) (k : Outcome State) (h : onSequencer d s k = .next t) :
    s.params.hasDrive d = true ∧ (((s.other d).step = .idle ∧ k = .next t) ∨ t = s) := by
  obtain ⟨hd, h⟩ := (onDrive_next d s t _).1 h
  refine ⟨hd, ?_⟩
  split at h
  · rename_i ho; exact .inl ⟨ho, h⟩
  · cases h; exact .inr rfl

theorem onRange_in (off len : Nat) (k : Outcome State) (h : off + len ≤ 536) : onRange off len k = k := by
  simp [onRange, inBuf, bufLen, h]

theorem onRange_out (off len : Nat) (k : Outcome State) (h : 536 < off + len) : onRange off len k = .refused .bufferRange := by
  have : ¬ off + len ≤ 536 := by omega
  simp [onRange, inBuf, bufLen, this]

theorem onRange_next (off len : Nat) (k : Outcome State) (t : State) :
    onRange off len k = .next t ↔ off + len ≤ 536 ∧ k = .next t := by
  by_cases h : off + len ≤ 536 <;> simp [onRange, inBuf, bufLen, h]

theorem State.allIdle_iff (s : State) : s.allIdle = true ↔ s.drv0.step = .idle ∧ s.drv1.step = .idle := by
  simp [State.allIdle]

theorem onIdle_idle (s : State) (k : Outcome State) (h0 : s.drv0.step = .idle) (h1 : s.drv1.step = .idle) : onIdle s k = k := by
  rw [onIdle, if_pos ((State.allIdle_iff s).2 ⟨h0, h1⟩)]

theorem onIdle_selected (s : State) (k : Outcome State) (h : s.drv0.step ≠ .idle ∨ s.drv1.step ≠ .idle) :
    onIdle s k = .refused .hostOpWhileSelected := by
  rw [onIdle, if_neg]
  rw [State.allIdle_iff]
  tauto

theorem onIdle_next (s t : State) (k : Outcome State) :
    onIdle s k = .next t ↔ (s.drv0.step = .idle ∧ s.drv1.step = .idle) ∧ k = .next t := by
  rw [← State.allIdle_iff]
  by_cases h : s.allIdle = true <;> simp [onIdle, h]

theorem andThen_next {α β : Type} (x : Outcome α) (f : α → Outcome β) (t : β) :
    andThen x f = .next t ↔ ∃ s, x = .next s ∧ f s = .next t := by
  cases x <;> simp [andThen]

@[simp] theorem andThen_next_left {α β : Type} (s : α) (f : α → Outcome β) : andThen (.next s) f = f s := rfl

/-! ## Tests -/

theorem State.selected_iff (s : State) (d : DriveId) : s.selected d = true ↔ s.selector = d.pick .drive0 .drive1 := by
  simp [State.selected]

theorem State.dispatchEnabled_iff (s : State) (d : DriveId) :
    s.dispatchEnabled d = true ↔ s.drv0.step = .idle ∧ s.drv1.step = .idle ∧ s.selected d = true := by
  simp [State.dispatchEnabled, State.allIdle_iff, and_assoc]

theorem geometryLegal_iff (half : Bool) (img : Image) :
    geometryLegal half img = true ↔
      1 ≤ img.numTrack.toNat ∧ 1 ≤ img.numSec.toNat ∧ (half = true → img.numSec.toNat % 2 = 0) := by
  cases half <;> simp [geometryLegal, and_assoc]

theorem State.crcMatches_iff (s : State) (off : Nat) :
    s.crcMatches off = true ↔ s.bufByte off = hi8 s.crc ∧ s.bufByte (off + 1) = lo8 s.crc := by
  simp [State.crcMatches]

theorem legalLengthCode_iff (n : Byte) : legalLengthCode n = true ↔ n = 1#8 ∨ n = 2#8 := by simp [legalLengthCode]

theorem Drive.run_iff (x : Drive) : x.run = .deselected ↔ x.step = .idle := by
  unfold Drive.run; split <;> simp_all

theorem Drive.oddSector_iff (x : Drive) : x.oddSector = true ↔ x.sector.toNat % 2 = 1 := by
  simp only [Drive.oddSector, BitVec.getLsbD, Nat.testBit_zero, decide_eq_true_eq]

theorem diskChangeAtStep_eq (f : ImageFlags) (v : Bool) :
    diskChangeAtStep f v = if f.ready = true ∨ v = true then .released else .asserted := by
  rcases f with ⟨c, r, w⟩
  cases r <;> cases v <;> rfl

theorem track0Level_eq (t : Word16) : track0Level t = if t = 0#16 then .asserted else .released := by
  by_cases h : t = 0#16 <;> simp [track0Level, Level.assertedWhen, h]

/-- The clamp of R175 against a legal `numTrack` (R30) is the cut to `[0, numTrack-1]`, and it fits the track register. -/
theorem clampedTrack_legal (x : Drive) (delta : Word16) (h1 : 1 ≤ x.img.numTrack.toNat) (h2 : x.img.numTrack.toNat ≤ 32767) :
    clampedTrack x delta = max 0 (min ((x.img.numTrack.toNat : Int) - 1) (x.track.toInt + delta.toInt)) ∧
    fitsSigned16 (clampedTrack x delta) = true := by
  have hc : clampedTrack x delta = max 0 (min ((x.img.numTrack.toNat : Int) - 1) (x.track.toInt + delta.toInt)) := by
    unfold clampedTrack clamp; split <;> (try split) <;> omega
  refine ⟨hc, ?_⟩
  rw [hc]
  simp only [fitsSigned16, Bool.and_eq_true, decide_eq_true_eq]
  omega

/-- A value that fits sixteen bits is kept by the register. -/
theorem toInt_ofInt_of_fits (v : Int) (h : fitsSigned16 v = true) : (BitVec.ofInt 16 v).toInt = v := by
  simp only [fitsSigned16, Bool.and_eq_true, decide_eq_true_eq] at h
  rw [BitVec.toInt_ofInt]
  exact Int.bmod_eq_of_le (by omega) (by omega)

/-- From a track that is not negative the block address fits 24 bits (R203). -/
theorem lbaValue_bound (x : Drive) (h : 0 ≤ x.track.toInt) : 0 ≤ lbaValue x ∧ lbaValue x < 2 ^ 24 ∧ fitsLba (lbaValue x) = true := by
  have hlt := x.track.toInt_lt
  have hs := x.side.isLt
  have hn := x.img.numSec.isLt
  have hq := x.sector.isLt
  have hb : 0 ≤ lbaValue x ∧ lbaValue x < 2 ^ 24 := by
    unfold lbaValue
    refine ⟨by positivity, ?_⟩
    have : (x.track.toInt * 2 + x.side.toNat) * x.img.numSec.toNat ≤ (32767 * 2 + 1) * 255 := by
      apply Int.mul_le_mul <;> omega
    omega
  refine ⟨hb.1, hb.2, ?_⟩
  simp only [fitsLba, Bool.and_eq_true, decide_eq_true_eq]
  omega

/-! ## The two handlers and the consume -/

theorem fitsSigned16_iff (v : Int) : fitsSigned16 v = true ↔ -32768 ≤ v ∧ v ≤ 32767 := by
  simp [fitsSigned16]

theorem execStpEdge_invalid (f : Byte) (s : State) (h : edgeValid f = false) : execStpEdge f s = .next s := by
  simp [execStpEdge, h]

theorem execStpEdge_valid (f : Byte) (s : State) (h : edgeValid f = true)
    (hf : fitsSigned16 (steppedDelta (edgeStepDir f) s.pendingTrackDelta) = true) :
    execStpEdge f s = .next { s with
      pendingTrackDelta := BitVec.ofInt 16 (steppedDelta (edgeStepDir f) s.pendingTrackDelta), trackChangedFlag := true } := by
  simp [execStpEdge, h, hf]

theorem execStpEdge_past (f : Byte) (s : State) (h : edgeValid f = true)
    (hf : fitsSigned16 (steppedDelta (edgeStepDir f) s.pendingTrackDelta) = false) :
    execStpEdge f s = .fault .deltaOverflow := by
  simp [execStpEdge, h, hf]

/-- Everything an edge that raises no fault can do. -/
theorem execStpEdge_next (f : Byte) (s t : State) (h : execStpEdge f s = .next t) :
    (edgeValid f = false ∧ t = s) ∨
    (edgeValid f = true ∧ t.pendingTrackDelta.toInt = steppedDelta (edgeStepDir f) s.pendingTrackDelta ∧
      t = { s with pendingTrackDelta := t.pendingTrackDelta, trackChangedFlag := true }) := by
  cases hv : edgeValid f with
  | false =>
    rw [execStpEdge_invalid f s hv] at h
    cases h
    exact .inl ⟨rfl, rfl⟩
  | true =>
    cases hf : fitsSigned16 (steppedDelta (edgeStepDir f) s.pendingTrackDelta) with
    | true =>
      rw [execStpEdge_valid f s hv hf] at h
      cases h
      exact .inr ⟨rfl, toInt_ofInt_of_fits _ hf, rfl⟩
    | false =>
      rw [execStpEdge_past f s hv hf] at h
      cases h

/-- The clear of the consume, in one form whatever the flag is. -/
theorem State.deltaCleared_eq (s : State) :
    s.deltaCleared = { s with pendingTrackDelta := if s.trackChangedFlag then 0#16 else s.pendingTrackDelta,
                              trackChangedFlag := false } := by
  unfold State.deltaCleared
  cases hf : s.trackChangedFlag with
  | true => simp
  | false =>
    simp only [Bool.false_eq_true, if_false]
    cases s
    cases hf
    rfl

/-! ## The drives -/

/-- Every drive is idle exactly when both records say so. -/
theorem State.drv_step_idle (s : State) (h0 : s.drv0.step = .idle) (h1 : s.drv1.step = .idle) (d : DriveId) :
    (s.drv d).step = .idle := by cases d <;> assumption

@[simp] theorem State.setDrv_setDrv (s : State) (d : DriveId) (x y : Drive) : (s.setDrv d x).setDrv d y = s.setDrv d y := by
  cases d <;> rfl

/-- Everything the choice of the running drive does (R143, R154): the Selected drive where one is, with nothing drawn; else a drive the
topology has, with one draw (assumption log 8). -/
theorem State.runningDrive_spec (s : State) :
    (s.drv0.step ≠ .idle → s.runningDrive = .drive0) ∧
    (s.drv0.step = .idle → s.drv1.step ≠ .idle → s.runningDrive = .drive1) ∧
    (s.drv0.step = .idle → s.drv1.step = .idle → s.params.hasDrive s.runningDrive = true) ∧
    (s.drv0.step ≠ .idle ∨ s.drv1.step ≠ .idle → s.foundRunning = s) := by
  refine ⟨fun h => if_pos h, fun h0 h1 => ?_, fun h0 h1 => ?_, fun h => ?_⟩
  · rw [State.runningDrive, if_neg (not_not.2 h0), if_pos h1]
  · rw [State.runningDrive, if_neg (not_not.2 h0), if_neg (not_not.2 h1)]
    cases h : s.params.hasDrive .drive1 with
    | true => rw [if_pos rfl]; cases Config.freeDrive s.draws <;> first | exact h | rfl
    | false => rfl
  · have : s.allIdle = false := by rw [Bool.eq_false_iff, ne_eq, State.allIdle_iff]; tauto
    simp [State.foundRunning, this]

/-! ## Oracle answers -/

@[simp] theorem Answer.content_keep (a : Answer) (n len : Nat) (h : a.keep = true) : a.content n len = none := by
  simp [Answer.content, h]

theorem Answer.content_length (a : Answer) (n len : Nat) (bs : List Byte) (h : a.content n len = some bs) : bs.length = len := by
  unfold Answer.content at h
  split at h
  · cases h
  · cases h; simp

/-- The bytes an answer gives stand at the start of what it leaves. -/
theorem Answer.content_given (a : Answer) (n len : Nat) (bs : List Byte) (h : a.content n len = some bs) (k : Nat) (hk : k < len)
    (hg : k < a.bytes.length) : bs[k]? = a.bytes[k]? := by
  unfold Answer.content at h
  split at h
  · cases h
  · cases h
    simp [List.getElem?_map, List.getElem?_range hk, List.getElem?_eq_getElem hg]

/-- A range of `BUF` after an oracle answer: nothing outside it changes. -/
theorem State.bufByte_drawBuf_outside (s : State) (off len : Nat) (a : Answer) (n : Nat) (x : Nat) (h : x < off ∨ off + len ≤ x) :
    (s.drawBuf off (a.content n len)).bufByte x = s.bufByte x := by
  cases hc : a.content n len with
  | none => rfl
  | some bs =>
    have hl := a.content_length n len bs hc
    rw [State.drawBuf]
    split
    · exact State.bufByte_putBuf_outside s off _ x (by rw [List.length_take]; omega)
    · rfl

theorem State.drawBuf_eq (s : State) (off : Nat) (c : Option (List Byte)) : s.drawBuf off c = { s with buf := (s.drawBuf off c).buf } := by
  cases c with
  | none => rfl
  | some bs => rw [State.drawBuf]; split <;> rfl

theorem State.drawBuf_drv (s : State) (off : Nat) (c : Option (List Byte)) (d : DriveId) : (s.drawBuf off c).drv d = s.drv d := by
  rw [State.drawBuf_eq]; cases d <;> rfl

/-- The bytes of the range that exist hold what the answer gives them. -/
theorem State.bufByte_drawBuf_inside (s : State) (off : Nat) (bs : List Byte) (k : Nat) (h : k < bs.length) (hb : off + k < 536) :
    (s.drawBuf off (some bs)).bufByte (off + k) = bs[k] := by
  rw [State.drawBuf, if_pos (by rw [bufLen]; omega), State.bufByte_putBuf_inside _ _ _ k (by rw [List.length_take, bufLen]; omega),
    List.getElem_take]

/-! ## Operands that name bytes outside `BUF` -/

@[simp] theorem State.namedByte_in (s : State) (a : Nat) (h : a < 536) : s.namedByte a = s.bufByte a := if_pos h
@[simp] theorem State.length_namedRange (s : State) (off len : Nat) : (s.namedRange off len).length = len := by simp [State.namedRange]
theorem State.tookNamed_in (s : State) (off len : Nat) (h : off + len ≤ 536) : s.tookNamed off len = s := by
  simp [State.tookNamed, inBuf, bufLen, h]
theorem State.putNamed_in (s : State) (a : Nat) (b : Byte) (h : a < 536) : s.putNamed a b = s.putBuf a [b] := if_pos h
theorem State.putNamed_out (s : State) (a : Nat) (b : Byte) (h : 536 ≤ a) : s.putNamed a b = s := if_neg (Nat.not_lt.2 h)

/-- A byte of the range that exists is the byte of `BUF`. -/
theorem State.getElem_namedRange (s : State) (off len k : Nat) (h : k < len) (hb : off + k < 536) :
    (s.namedRange off len)[k]? = some (s.bufByte (off + k)) := by
  simp [State.namedRange, h, hb]

/-- A range inside `BUF` is named as it is. -/
theorem State.namedRange_in (s : State) (off len : Nat) (h : off + len ≤ 536) : s.namedRange off len = s.bufRange off len := by
  unfold State.namedRange State.bufRange
  refine List.map_congr_left fun k hk => ?_
  have := List.mem_range.1 hk
  exact s.namedByte_in _ (by omega)

/-! ## Store slots -/

theorem State.putStore_eq (s : State) (sp : Space) (a : Nat) (bs : List Byte) :
    s.putStore sp a bs = { s with pstore := (s.putStore sp a bs).pstore, vstore := (s.putStore sp a bs).vstore } := by
  cases sp <;> rfl

/-- Everything a slot read can do. -/
theorem State.readSlot_spec (s : State) (sp : Space) (address : Nat) :
    (s.readSlot sp address).1 = s.answer.st ∧
    (s.readSlot sp address).2 = { s with buf := (s.readSlot sp address).2.buf, calls := s.calls ++ [.memRead sp address],
                                         answers := s.answers.tail, draws := s.draws + 1 } ∧
    (∀ a, a < 9 ∨ 521 ≤ a → (s.readSlot sp address).2.bufByte a = s.bufByte a) ∧
    (s.answer.st = 0 → (s.readSlot sp address).2.bufRange 9 512 = s.slotBytes sp address) := by
  unfold State.readSlot
  by_cases h : s.answer.st = 0
  · simp only [h, if_true, true_and]
    refine ⟨rfl, fun a ha => ?_, fun _ => ?_⟩
    · rw [State.bufByte_putBuf_outside _ _ _ _ (by rw [State.length_slotBytes, slotSize]; omega)]; rfl
    · have := State.bufRange_putBuf_same ((s.call (.memRead sp address)).tookAnswer) 9 (s.slotBytes sp address)
      rwa [State.length_slotBytes, slotSize] at this
  · simp only [h, if_false, true_and]
    refine ⟨?_, fun a ha => ?_, fun h0 => absurd h0 (by simp)⟩
    · rw [State.drawBuf_eq]; rfl
    · rw [State.bufByte_drawBuf_outside _ _ _ _ _ _ (by rw [slotSize]; omega)]; rfl

/-- Everything a write of `bs` at byte `k` of a slot can do: the status is the answer's; nothing but the store and the record of the call
changes; no byte outside the slot changes, and on status 0 exactly the written run does. -/
theorem State.writeSlot_spec (s : State) (c : Call) (sp : Space) (address k : Nat) (bs : List Byte) (h : k + bs.length ≤ 512) :
    let r := s.writeSlot c sp address k bs
    r.1 = s.answer.st ∧
    r.2 = { s with pstore := r.2.pstore, vstore := r.2.vstore, calls := s.calls ++ [c], answers := s.answers.tail,
                   draws := s.draws + 1 } ∧
    (∀ sq, sq ≠ sp → r.2.store sq = s.store sq) ∧
    (∀ a, a < 512 * address ∨ 512 * address + 512 ≤ a → r.2.storeByte sp a = s.storeByte sp a) ∧
    (s.answer.st = 0 →
      (∀ j, (hj : j < bs.length) → r.2.storeByte sp (512 * address + k + j) = bs[j]) ∧
      ∀ a, a < 512 * address + k ∨ 512 * address + k + bs.length ≤ a → r.2.storeByte sp a = s.storeByte sp a) := by
  have outside : ∀ (t : State) (off : Nat) (cs : List Byte) (a : Nat), a < off ∨ off + cs.length ≤ a →
      (t.putStore sp off cs).storeByte sp a = t.storeByte sp a := by
    intro t off cs a ha
    rw [State.storeByte_putStore, dif_neg (by omega)]
  have other : ∀ (t : State) (off : Nat) (cs : List Byte) (sq : Space), sq ≠ sp → (t.putStore sp off cs).store sq = t.store sq := by
    intro t off cs sq hq
    cases sp <;> cases sq <;> first | rfl | exact absurd rfl hq
  intro r
  by_cases h0 : s.answer.st = 0
  · have hr : r = (0, ((s.call c).tookAnswer).putStore sp (512 * address + k) bs) := by
      simp only [r, State.writeSlot, h0, if_true, slotSize]
    rw [hr]
    refine ⟨h0.symm, by cases sp <;> rfl, fun sq hq => other _ _ _ sq hq, fun a ha => ?_, fun _ => ⟨fun j hj => ?_, fun a ha => ?_⟩⟩
    · exact outside _ _ _ _ (by omega)
    · simp only
      rw [State.storeByte_putStore, dif_pos (by omega)]
      simp
    · exact outside _ _ _ _ (by omega)
  · have hr : r = (s.answer.st, match s.answer.content s.draws 512 with
        | none => (s.call c).tookAnswer
        | some drawn => ((s.call c).tookAnswer).putStore sp (512 * address) drawn) := by
      show State.writeSlot s c sp address k bs = _
      unfold State.writeSlot
      rw [if_neg h0]
      rfl
    rw [hr]
    refine ⟨rfl, ?_, fun sq hq => ?_, fun a ha => ?_, fun h1 => absurd h1 h0⟩
    · cases s.answer.content s.draws 512 with
      | none => rfl
      | some bs => cases sp <;> rfl
    · cases s.answer.content s.draws 512 with
      | none => rfl
      | some bs => exact other _ _ _ sq hq
    · cases hc : s.answer.content s.draws 512 with
      | none => rfl
      | some drawn =>
        have hl := s.answer.content_length _ _ drawn hc
        exact outside _ _ _ _ (by omega)

end Sys2Proof.Machine
end

