-- ==== Sys2Proof/Laws/Crc.lean ====
section
/-!
SUPPORT. The CRC function: its bits, how it runs over byte strings, its linearity, and what a shift with no feedback loses.
-/

namespace Sys2Proof.Machine

/-! ## Bits -/

/-- Bit `k` of one shift: the bit below it, and the polynomial's bit under the feedback (R121). -/
theorem getLsbD_crcBit (poly c : Word16) (b : Bool) (k : Nat) (hk : k < 16) :
    (crcBit poly c b).getLsbD k
      = ((decide (0 < k) && c.getLsbD (k - 1)) ^^ ((c.getLsbD 15 ^^ b) && poly.getLsbD k)) := by
  have hf : (if (c.getLsbD 15 ^^ b) = true then poly else 0#16).getLsbD k = ((c.getLsbD 15 ^^ b) && poly.getLsbD k) := by
    by_cases h : (c.getLsbD 15 ^^ b) = true
    · rw [if_pos h, h, Bool.true_and]
    · rw [if_neg h, Bool.eq_false_iff.2 h, Bool.false_and, BitVec.getLsbD_zero]
  rw [crcBit, BitVec.getLsbD_xor, hf, BitVec.getLsbD_shiftLeft]
  rcases Nat.eq_zero_or_pos k with rfl | h
  · simp
  · have h1 : ¬ k < 1 := by omega
    simp [h, h1, hk]

/-- Two registers are equal when their sixteen bits are. -/
theorem word16_ext (a b : Word16) (h : ∀ k, k < 16 → a.getLsbD k = b.getLsbD k) : a = b := BitVec.eq_of_getLsbD_eq h

/-! ## Byte strings -/

@[simp] theorem crcBytes_nil (poly c : Word16) : crcBytes poly c [] = c := rfl

@[simp] theorem crcBytes_cons (poly c : Word16) (x : Byte) (m : List Byte) :
    crcBytes poly c (x :: m) = crcBytes poly (crcByte poly c x) m := rfl

theorem crcBytes_append (poly c : Word16) (m n : List Byte) :
    crcBytes poly c (m ++ n) = crcBytes poly (crcBytes poly c m) n := by
  simp [crcBytes, List.foldl_append]

theorem crcByte_eq (poly c : Word16) (x : Byte) :
    crcByte poly c x = crcBit poly (crcBit poly (crcBit poly (crcBit poly (crcBit poly (crcBit poly (crcBit poly (crcBit poly c
      (x.getLsbD 7)) (x.getLsbD 6)) (x.getLsbD 5)) (x.getLsbD 4)) (x.getLsbD 3)) (x.getLsbD 2)) (x.getLsbD 1)) (x.getLsbD 0) := rfl

/-! ## Linearity -/

theorem crcBit_xor (poly a c : Word16) (p q : Bool) : crcBit poly (a ^^^ c) (p ^^ q) = crcBit poly a p ^^^ crcBit poly c q := by
  refine word16_ext _ _ fun k hk => ?_
  rw [BitVec.getLsbD_xor, getLsbD_crcBit _ _ _ _ hk, getLsbD_crcBit _ _ _ _ hk, getLsbD_crcBit _ _ _ _ hk, BitVec.getLsbD_xor,
    BitVec.getLsbD_xor]
  cases a.getLsbD 15 <;> cases c.getLsbD 15 <;> cases p <;> cases q <;> cases poly.getLsbD k <;> cases decide (0 < k) <;>
    cases a.getLsbD (k - 1) <;> cases c.getLsbD (k - 1) <;> rfl

theorem crcByte_xor (poly a c : Word16) (x y : Byte) : crcByte poly (a ^^^ c) (x ^^^ y) = crcByte poly a x ^^^ crcByte poly c y := by
  simp only [crcByte_eq, BitVec.getLsbD_xor, crcBit_xor]

/-- The CRC of the exclusive-or of two strings of one length. -/
theorem crcBytes_xor (poly : Word16) (m n : List Byte) (h : m.length = n.length) (a c : Word16) :
    crcBytes poly (a ^^^ c) (List.zipWith (· ^^^ ·) m n) = crcBytes poly a m ^^^ crcBytes poly c n := by
  induction m generalizing n a c with
  | nil => cases n with
    | nil => rfl
    | cons y n => simp at h
  | cons x m ih => cases n with
    | nil => simp at h
    | cons y n =>
      simp only [List.zipWith_cons_cons, crcBytes_cons, crcByte_xor]
      exact ih n (by simpa using h) _ _

/-! ## No information is lost where the polynomial has its constant term -/

/-- With the constant term present a shift is one to one in the register: only zero goes to zero. -/
theorem crcBit_eq_zero (poly c : Word16) (hp : poly.getLsbD 0 = true) (h : crcBit poly c false = 0#16) : c = 0#16 := by
  have bit : ∀ k, k < 16 → (crcBit poly c false).getLsbD k = false := fun k _ => by rw [h, BitVec.getLsbD_zero]
  have h15 : c.getLsbD 15 = false := by
    have := bit 0 (by decide)
    rw [getLsbD_crcBit _ _ _ _ (by decide), hp] at this
    simpa using this
  refine word16_ext _ _ fun k hk => ?_
  rw [BitVec.getLsbD_zero]
  rcases Nat.lt_or_ge k 15 with h1 | h1
  · have := bit (k + 1) (by omega)
    rw [getLsbD_crcBit _ _ _ _ (by omega), h15] at this
    simpa using this
  · rwa [show k = 15 by omega]

theorem crcByte_zero_eq_zero (poly c : Word16) (hp : poly.getLsbD 0 = true) (h : crcByte poly c 0#8 = 0#16) : c = 0#16 := by
  rw [crcByte_eq] at h
  simp only [BitVec.getLsbD_zero] at h
  iterate 8 replace h := crcBit_eq_zero poly _ hp h
  exact h

/-- Zero bytes never take a register that differs to one that does not. -/
theorem crcBytes_zeros_eq_zero (poly : Word16) (n : Nat) (c : Word16) (hp : poly.getLsbD 0 = true)
    (h : crcBytes poly c (List.replicate n 0#8) = 0#16) : c = 0#16 := by
  induction n generalizing c with
  | zero => exact h
  | succ n ih =>
    rw [List.replicate_succ, crcBytes_cons] at h
    exact crcByte_zero_eq_zero poly c hp (ih _ h)

/-! ## The CRC operations over the state -/

theorem State.crcBlock_eq (s : State) (off len : Nat) :
    s.crcBlock off len = { s with crc := crcBytes s.params.crcPoly s.params.crcInit (s.bufRange off len) } := rfl

/-- The comparison as the rules write it (R125). -/
theorem State.crcMatches_eq (s : State) (off : Nat) :
    s.crcMatches off = decide (s.bufByte off = hi8 s.crc ∧ s.bufByte (off + 1) = lo8 s.crc) := by
  rw [Bool.eq_iff_iff, State.crcMatches_iff, decide_eq_true_iff]

/-- `CRC.PUT` then the two bytes: high byte first (R124). -/
theorem State.bufByte_crcPut (s : State) (off a : Nat) :
    (s.crcPut off).bufByte a = if a = off then hi8 s.crc else if a = off + 1 then lo8 s.crc else s.bufByte a := by
  rw [State.crcPut, State.bufByte_putBuf]
  by_cases h : a = off
  · subst h; simp
  · by_cases h' : a = off + 1
    · subst h'; simp
    · rw [dif_neg (by simp only [List.length_cons, List.length_nil]; omega), if_neg h, if_neg h']

end Sys2Proof.Machine
end

