-- ==== Sys2Proof/Laws/Decode.lean ====
section
/-!
SUPPORT. The byte-order helpers undo each other, and the operand readers undo the encoder's operand bytes.
-/

namespace Sys2Proof

/-- A 16-bit word is its high byte, then its low byte. -/
@[simp] theorem word16_hi8_lo8 (w : Word16) : word16 (hi8 w) (lo8 w) = w := by
  apply BitVec.eq_of_getLsbD_eq
  intro i hi
  simp only [word16, hi8, lo8, BitVec.getLsbD_append, BitVec.getLsbD_extractLsb']
  by_cases h : i < 8
  · simp [h]
  · have h1 : i - 8 < 8 := by omega
    have h2 : 8 + (i - 8) = i := by omega
    simp [h, h1, h2]

@[simp] theorem hi8_word16 (h l : Byte) : hi8 (word16 h l) = h := by
  apply BitVec.eq_of_getLsbD_eq
  intro i hi
  simp only [word16, hi8, BitVec.getLsbD_extractLsb', BitVec.getLsbD_append]
  simp [hi]

@[simp] theorem lo8_word16 (h l : Byte) : lo8 (word16 h l) = l := by
  apply BitVec.eq_of_getLsbD_eq
  intro i hi
  simp only [word16, lo8, BitVec.getLsbD_extractLsb', BitVec.getLsbD_append]
  simp [hi]

/-- A 32-bit word is its high half, then its low half. -/
@[simp] theorem append_hi16_lo16 (w : Word32) : hi16 w ++ lo16 w = w := by
  apply BitVec.eq_of_getLsbD_eq
  intro i hi
  simp only [hi16, lo16, BitVec.getLsbD_append, BitVec.getLsbD_extractLsb']
  by_cases h : i < 16
  · simp [h]
  · have h1 : i - 16 < 16 := by omega
    have h2 : 16 + (i - 16) = i := by omega
    simp [h, h1, h2]

@[simp] theorem driveOf_driveByte (d : DriveId) : driveOf (driveByte d) = some d := by cases d <;> rfl

@[simp] theorem boolOf_boolByte (b : Bool) : boolOf (boolByte b) = b := by cases b <;> rfl

/-- The drive reader on an encoded drive. -/
@[simp] theorem withDrive_driveByte (d : DriveId) (f : DriveId → TraceItem) : withDrive (driveByte d) f = .ok (f d) := by
  simp [withDrive]

/-- A frame's payload, CRC and gap, read back. -/
theorem dataFieldOf_encoded (len : Nat) (f : List Byte → Word16 → Instr) (payload : List Byte) (crc : Word16)
    (h : payload.length = len) :
    dataFieldOf len f (payload ++ [hi8 crc, lo8 crc, 0x4E#8]) = .ok (.op (f payload crc)) := by
  subst h
  simp [dataFieldOf]

end Sys2Proof
end

