-- ==== Sys2Proof/Laws/Framer.lean ====
section
/-!
SUPPORT. One spec lemma for each building action of the framer: the bytes it leaves, the register, and that every other byte of `BUF` and
every other field stay.
-/

namespace Sys2Proof.Machine

/-- A range reads the same in two states that agree on each of its bytes. -/
theorem State.bufRange_eq (s t : State) (off len : Nat) (h : ∀ a, off ≤ a → a < off + len → t.bufByte a = s.bufByte a) :
    t.bufRange off len = s.bufRange off len := by
  unfold State.bufRange
  refine List.map_congr_left fun k hk => ?_
  have := List.mem_range.1 hk
  exact h _ (by omega) (by omega)

/-- A range is a list when each of its bytes is. -/
theorem State.bufRange_ext (s : State) (off len : Nat) (bs : List Byte) (hl : bs.length = len)
    (h : ∀ k, (hk : k < bs.length) → s.bufByte (off + k) = bs[k]) : s.bufRange off len = bs := by
  refine List.ext_getElem (by simp [hl]) fun k h1 h2 => ?_
  rw [State.getElem_bufRange]
  exact h k h2

/-- Copying a range inside `BUF`: the destination holds what the source held, every other byte stays. -/
theorem State.copyBuf_spec (s : State) (dst src len : Nat) :
    (∀ k, k < len → (s.copyBuf dst src len).bufByte (dst + k) = s.bufByte (src + k)) ∧
    (∀ a, a < dst ∨ dst + len ≤ a → (s.copyBuf dst src len).bufByte a = s.bufByte a) := by
  refine ⟨fun k hk => ?_, fun a ha => ?_⟩
  · have h : k < (s.bufRange src len).length := by simpa using hk
    rw [State.copyBuf, State.bufByte_putBuf_inside _ _ _ _ h, State.getElem_bufRange]
  · exact State.bufByte_putBuf_outside _ _ _ _ (by simpa using ha)

/-- `FRM.HDR` up to the gap byte (R140): the mark, the four fields and their CRC. -/
theorem State.headerFields_spec (s : State) (base : Nat) (t h sec n : Byte) :
    let u := ((s.putBuf base [0xFE#8, t, h, sec, n]).crcBlock base 5).crcPut (base + 5)
    let c := crcBytes s.params.crcPoly s.params.crcInit [0xFE#8, t, h, sec, n]
    u.crc = c ∧ u.bufRange base 7 = [0xFE#8, t, h, sec, n, hi8 c, lo8 c] ∧
    (∀ a, a < base ∨ base + 7 ≤ a → u.bufByte a = s.bufByte a) ∧
    u = { s with buf := u.buf, crc := u.crc } := by
  intro u c
  have hr : (s.putBuf base [0xFE#8, t, h, sec, n]).bufRange base 5 = [0xFE#8, t, h, sec, n] :=
    State.bufRange_putBuf_same s base [0xFE#8, t, h, sec, n]
  have hc : ((s.putBuf base [0xFE#8, t, h, sec, n]).crcBlock base 5).crc = c := by
    rw [State.crcBlock_crc, hr]; rfl
  have hu : u = ((s.putBuf base [0xFE#8, t, h, sec, n]).crcBlock base 5).putBuf (base + 5) [hi8 c, lo8 c] := by
    simp only [u, State.crcPut, hc]
  have hb : ∀ a, u.bufByte a = if base ≤ a ∧ a < base + 7 then [0xFE#8, t, h, sec, n, hi8 c, lo8 c].getD (a - base) 0#8
      else s.bufByte a := by
    intro a
    rw [hu, State.bufByte_putBuf]
    split
    · rename_i h2
      simp only [List.length_cons, List.length_nil] at h2
      rcases (by omega : a = base + 5 ∨ a = base + 6) with rfl | rfl <;> simp
    · rename_i h2
      simp only [List.length_cons, List.length_nil] at h2
      show (s.putBuf base [0xFE#8, t, h, sec, n]).bufByte a = _
      rw [State.bufByte_putBuf]
      split
      · rename_i h3
        simp only [List.length_cons, List.length_nil] at h3
        rcases (by omega : a = base + 0 ∨ a = base + 1 ∨ a = base + 2 ∨ a = base + 3 ∨ a = base + 4) with
          rfl | rfl | rfl | rfl | rfl <;> simp
      · rename_i h3
        simp only [List.length_cons, List.length_nil] at h3
        rw [if_neg (by omega)]
  refine ⟨?_, ?_, fun a ha => ?_, ?_⟩
  · rw [hu]; exact hc
  · refine State.bufRange_ext _ _ _ _ (by simp) fun k hk => ?_
    simp only [List.length_cons, List.length_nil] at hk
    rw [hb, if_pos (by omega), Nat.add_sub_cancel_left, List.getD_eq_getElem?_getD, List.getElem?_eq_getElem]
    rfl
  · rw [hb, if_neg (by omega)]
  · rw [hu]; rfl

/-- `FRM.HDR` as an action (R140), with its eight bytes inside `BUF`. -/
theorem State.buildHeader_spec (s : State) (base : Nat) (t h sec n : Byte) (hi : base + 8 ≤ 536) :
    let u := s.buildHeader base t h sec n
    let c := crcBytes s.params.crcPoly s.params.crcInit [0xFE#8, t, h, sec, n]
    u.crc = c ∧ u.bufRange base 8 = [0xFE#8, t, h, sec, n, hi8 c, lo8 c, 0x4E#8] ∧
    (∀ a, a < base ∨ base + 8 ≤ a → u.bufByte a = s.bufByte a) ∧
    u = { s with buf := u.buf, crc := u.crc } := by
  intro u c
  obtain ⟨h1, h2, h3, h4⟩ := s.headerFields_spec base t h sec n
  have hu : u = (((s.putBuf base [0xFE#8, t, h, sec, n]).crcBlock base 5).crcPut (base + 5)).putBuf (base + 7) [0x4E#8] :=
    State.putNamed_in _ _ _ (by omega)
  generalize ((s.putBuf base [0xFE#8, t, h, sec, n]).crcBlock base 5).crcPut (base + 5) = w at h1 h2 h3 h4 hu
  have out : ∀ a, a ≠ base + 7 → u.bufByte a = w.bufByte a := fun a ha => by
    rw [hu]; exact State.bufByte_putBuf_outside _ _ _ _ (by simp only [List.length_singleton]; omega)
  refine ⟨by rw [hu]; exact h1, ?_, fun a ha => (out a (by omega)).trans (h3 a (by omega)), by rw [hu, h4]; rfl⟩
  show u.bufRange base (7 + 1) = _
  rw [State.bufRange_append, State.bufRange_eq w u base 7 fun a _ _ => out a (by omega), h2,
    State.bufRange_succ, State.bufRange_zero, hu]
  exact congrArg (fun b => [0xFE#8, t, h, sec, n, hi8 c, lo8 c] ++ [b]) (State.bufByte_putBuf_inside w (base + 7) [0x4E#8] 0 (by simp))

@[simp] theorem State.putTrailer_crc (s : State) (off : Nat) : (s.putTrailer off).crc = s.crc := rfl

/-- The trailer writes bytes and nothing else. -/
theorem State.putTrailer_eq (s : State) (off : Nat) : s.putTrailer off = { s with buf := (s.putTrailer off).buf } := rfl

/-- The trailer of a data field (R141 to R143). -/
theorem State.putTrailer_spec (s : State) (off : Nat) :
    (s.putTrailer off).bufByte off = hi8 s.crc ∧ (s.putTrailer off).bufByte (off + 1) = lo8 s.crc ∧
    (s.putTrailer off).bufByte (off + 2) = 0x4E#8 ∧
    (∀ a, a < off ∨ off + 3 ≤ a → (s.putTrailer off).bufByte a = s.bufByte a) := by
  have out : ∀ a, a ≠ off + 2 → (s.putTrailer off).bufByte a = (s.crcPut off).bufByte a := fun a ha =>
    State.bufByte_putBuf_outside _ _ _ _ (by simp only [List.length_singleton]; omega)
  refine ⟨?_, ?_, ?_, fun a ha => ?_⟩
  · rw [out _ (by omega), State.bufByte_crcPut, if_pos rfl]
  · rw [out _ (by omega), State.bufByte_crcPut, if_neg (by omega), if_pos rfl]
  · exact State.bufByte_putBuf_inside (s.crcPut off) (off + 2) [0x4E#8] 0 (by simp)
  · rw [out _ (by omega), State.bufByte_crcPut, if_neg (by omega), if_neg (by omega)]

/-- The mark byte of a data field. -/
theorem State.putMark_spec (s : State) (off : Nat) :
    (s.putBuf off [0xFB#8]).bufByte off = 0xFB#8 ∧
    (∀ a, a ≠ off → (s.putBuf off [0xFB#8]).bufByte a = s.bufByte a) := by
  refine ⟨?_, fun a ha => State.bufByte_putBuf_outside _ _ _ _ (by simp only [List.length_singleton]; omega)⟩
  simpa using State.bufByte_putBuf_inside s off [0xFB#8] 0 (by simp)

/-- Mark and payload, as the CRC of a data field covers them. -/
theorem State.bufRange_marked (s : State) (off len : Nat) :
    (s.putBuf off [0xFB#8]).bufRange off (len + 1) = 0xFB#8 :: s.bufRange (off + 1) len := by
  rw [State.bufRange_succ, (State.putMark_spec s off).1]
  congr 1
  exact State.bufRange_eq _ _ _ _ fun a h1 _ => (State.putMark_spec s off).2 a (by omega)

/-- A framed data field, read whole: mark, payload, the two CRC bytes, the gap byte. -/
theorem State.bufRange_dataField (s : State) (off len : Nat) (c : Word16) (h0 : s.bufByte off = 0xFB#8)
    (h1 : s.bufByte (off + 1 + len) = hi8 c) (h2 : s.bufByte (off + 1 + len + 1) = lo8 c)
    (h3 : s.bufByte (off + 1 + len + 2) = 0x4E#8) :
    s.bufRange off (len + 4) = 0xFB#8 :: (s.bufRange (off + 1) len ++ [hi8 c, lo8 c, 0x4E#8]) := by
  rw [show len + 4 = (len + 3) + 1 from rfl, State.bufRange_succ, h0, State.bufRange_append, State.bufRange_succ, h1,
    State.bufRange_succ, h2, State.bufRange_succ, h3, State.bufRange_zero]

/-- Mark laid at `off` and the register over mark and payload: the common start of the three data fields (R141 to R143). -/
theorem State.markAndCrc_spec (s : State) (off len : Nat) :
    let v := (s.putBuf off [0xFB#8]).crcBlock off (len + 1)
    v.crc = crcBytes s.params.crcPoly s.params.crcInit (0xFB#8 :: s.bufRange (off + 1) len) ∧
    v.bufByte off = 0xFB#8 ∧ (∀ a, a ≠ off → v.bufByte a = s.bufByte a) ∧ v = { s with buf := v.buf, crc := v.crc } := by
  intro v
  refine ⟨?_, (State.putMark_spec s off).1, (State.putMark_spec s off).2, rfl⟩
  rw [← State.bufRange_marked s off len]
  rfl

/-- `FRM.DAT512` as an action (R141). -/
theorem State.frameFull_spec (s : State) :
    let u := s.frameFull
    let c := crcBytes s.params.crcPoly s.params.crcInit (0xFB#8 :: s.bufRange 9 512)
    u.crc = c ∧ u.bufByte 8 = 0xFB#8 ∧ u.bufByte 521 = hi8 c ∧ u.bufByte 522 = lo8 c ∧ u.bufByte 523 = 0x4E#8 ∧
    (∀ a, a ≠ 8 → a < 521 ∨ 524 ≤ a → u.bufByte a = s.bufByte a) ∧
    u = { s with buf := u.buf, crc := u.crc } := by
  intro u c
  obtain ⟨hc, h8, hm, he⟩ := State.markAndCrc_spec s 8 512
  have hu : u = ((s.putBuf 8 [0xFB#8]).crcBlock 8 (512 + 1)).putTrailer 521 := rfl
  generalize (s.putBuf 8 [0xFB#8]).crcBlock 8 (512 + 1) = v at hc h8 hm he hu
  obtain ⟨t1, t2, t3, t4⟩ := State.putTrailer_spec v 521
  rw [← hu, hc] at t1 t2
  rw [← hu] at t3 t4
  refine ⟨by rw [hu, State.putTrailer_crc, hc], (t4 8 (by omega)).trans h8, t1, t2, t3,
    fun a h1 h2 => (t4 a (by omega)).trans (hm a h1), ?_⟩
  rw [hu, State.putTrailer_eq, he]

/-- `FRM.DAT256A` as an action (R142). -/
theorem State.frameFirstHalf_spec (s : State) :
    let u := s.frameFirstHalf
    let c := crcBytes s.params.crcPoly s.params.crcInit (0xFB#8 :: s.bufRange 9 256)
    u.crc = c ∧ u.bufByte 8 = 0xFB#8 ∧ u.bufByte 265 = hi8 c ∧ u.bufByte 266 = lo8 c ∧ u.bufByte 267 = 0x4E#8 ∧
    (∀ k, k < 3 → u.bufByte (524 + k) = s.bufByte (265 + k)) ∧
    (∀ a, a ≠ 8 → a < 265 ∨ (268 ≤ a ∧ a < 524) ∨ 527 ≤ a → u.bufByte a = s.bufByte a) ∧
    u = { s with buf := u.buf, crc := u.crc } := by
  intro u c
  obtain ⟨hc, h8, hm, he⟩ := State.markAndCrc_spec s 8 256
  have hu : u = (((s.putBuf 8 [0xFB#8]).crcBlock 8 (256 + 1)).copyBuf 524 265 3).putTrailer 265 := rfl
  generalize (s.putBuf 8 [0xFB#8]).crcBlock 8 (256 + 1) = v at hc h8 hm he hu
  obtain ⟨c1, c2⟩ := State.copyBuf_spec v 524 265 3
  have hw : (v.copyBuf 524 265 3).crc = v.crc ∧ v.copyBuf 524 265 3 = { v with buf := (v.copyBuf 524 265 3).buf } := ⟨rfl, rfl⟩
  generalize v.copyBuf 524 265 3 = w at c1 c2 hu hw
  obtain ⟨t1, t2, t3, t4⟩ := State.putTrailer_spec w 265
  rw [← hu, hw.1, hc] at t1 t2
  rw [← hu] at t3 t4
  refine ⟨by rw [hu, State.putTrailer_crc, hw.1, hc], (t4 8 (by omega)).trans ((c2 8 (by omega)).trans h8), t1, t2, t3,
    fun k hk => (t4 _ (by omega)).trans ((c1 k hk).trans (hm _ (by omega))),
    fun a h1 h2 => (t4 a (by omega)).trans ((c2 a (by omega)).trans (hm a h1)), ?_⟩
  rw [hu, State.putTrailer_eq, hw.2, he]

/-- `FRM.DAT256B` as an action (R143). -/
theorem State.frameSecondHalf_spec (s : State) (d : DriveId) :
    let u := s.frameSecondHalf d
    let x := s.drv d
    let hc := crcBytes s.params.crcPoly s.params.crcInit [0xFE#8, trackByte x, sideByte x, sectorByte x 2, 1#8]
    let c := crcBytes s.params.crcPoly s.params.crcInit (0xFB#8 :: s.bufRange 265 256)
    u.crc = c ∧
    u.bufRange 256 8 = [0xFE#8, trackByte x, sideByte x, sectorByte x 2, 1#8, hi8 hc, lo8 hc, 0x4E#8] ∧
    u.bufByte 264 = 0xFB#8 ∧ u.bufByte 521 = hi8 c ∧ u.bufByte 522 = lo8 c ∧ u.bufByte 523 = 0x4E#8 ∧
    (∀ k, k < 9 → u.bufByte (527 + k) = s.bufByte (256 + k)) ∧
    (∀ a, a < 256 ∨ (265 ≤ a ∧ a < 521) ∨ (524 ≤ a ∧ a < 527) ∨ 536 ≤ a → u.bufByte a = s.bufByte a) ∧
    u = { s with buf := u.buf, crc := u.crc } := by
  intro u x hc c
  have hu : u = ((((s.copyBuf 527 256 9).buildHeader 256 (trackByte x) (sideByte x) (sectorByte x 2) 1#8).putBuf
    264 [0xFB#8]).crcBlock 264 (256 + 1)).putTrailer 521 := rfl
  obtain ⟨c1, c2⟩ := State.copyBuf_spec s 527 256 9
  have h1 : s.copyBuf 527 256 9 = { s with buf := (s.copyBuf 527 256 9).buf } := rfl
  generalize s.copyBuf 527 256 9 = s1 at c1 c2 h1 hu
  obtain ⟨_, b2, b3, b4⟩ := State.buildHeader_spec s1 256 (trackByte x) (sideByte x) (sectorByte x 2) 1#8 (by decide)
  generalize s1.buildHeader 256 (trackByte x) (sideByte x) (sectorByte x 2) 1#8 = s2 at b2 b3 b4 hu
  obtain ⟨hcrc, h264, hm, he⟩ := State.markAndCrc_spec s2 264 256
  generalize (s2.putBuf 264 [0xFB#8]).crcBlock 264 (256 + 1) = s3 at hcrc h264 hm he hu
  obtain ⟨t1, t2, t3, t4⟩ := State.putTrailer_spec s3 521
  have same : ∀ a, a < 256 ∨ (265 ≤ a ∧ a < 521) ∨ (524 ≤ a ∧ a < 527) ∨ 536 ≤ a → s2.bufByte a = s.bufByte a := fun a ha =>
    (b3 a (by omega)).trans (c2 a (by omega))
  have hp1 : s1.params = s.params := by rw [h1]
  have hp2 : s2.params = s.params := by rw [b4]; exact hp1
  rw [hp2, State.bufRange_eq s s2 265 256 fun a h1 h2 => same a (by omega)] at hcrc
  rw [hp1] at b2
  rw [← hu, hcrc] at t1 t2
  rw [← hu] at t3 t4
  refine ⟨by rw [hu, State.putTrailer_crc, hcrc], ?_, (t4 264 (by omega)).trans h264, t1, t2, t3, fun k hk => ?_, fun a ha => ?_, ?_⟩
  · rw [State.bufRange_eq s2 u 256 8 fun a h1 h2 => (t4 a (by omega)).trans (hm a (by omega)), b2]
  · exact (t4 _ (by omega)).trans ((hm _ (by omega)).trans ((b3 _ (by omega)).trans (c1 k hk)))
  · exact (t4 a (by omega)).trans ((hm a (by omega)).trans (same a ha))
  · rw [hu, State.putTrailer_eq, he, b4, h1]

/-- The readback of a range (R155): only the range, the calls and the source of answers change. -/
theorem State.readBack_spec (s : State) (base len : Nat) :
    let u := s.readBack base len
    (∀ a, a < base ∨ base + len ≤ a → u.bufByte a = s.bufByte a) ∧
    (s.answer.keep = true → u.buf = s.buf) ∧
    (s.answer.keep = false → ∀ k, k < len → base + k < 536 → k < s.answer.bytes.length → some (u.bufByte (base + k)) = s.answer.bytes[k]?) ∧
    u = { s with buf := u.buf, calls := s.calls ++ [.readback base len], answers := s.answers.tail, draws := s.draws + 1 } := by
  intro u
  refine ⟨fun a ha => ?_, fun hk => ?_, fun hk k h1 hb h2 => ?_, ?_⟩
  · exact State.bufByte_drawBuf_outside _ _ _ _ _ _ ha
  · simp only [u, State.readBack, Answer.content_keep _ _ _ hk]; rfl
  · cases hc : s.answer.content s.draws len with
    | none => simp [Answer.content, hk] at hc
    | some bs =>
      have hl := Answer.content_length _ _ _ _ hc
      have := State.bufByte_drawBuf_inside ((s.call (.readback base len)).tookAnswer) base bs k (by omega) hb
      simp only [u, State.readBack, hc]
      rw [this, ← Answer.content_given _ _ _ _ hc k h1 h2, List.getElem?_eq_getElem]
  · simp only [u, State.readBack]
    rw [State.drawBuf_eq]; rfl

end Sys2Proof.Machine
end

