-- ==== Sys2Proof/Laws/Transfer.lean ====
section
/-!
SUPPORT. What the actions of a transfer can change, said once: the buffer, the register, the stores, the report channel, the calls and the
source of answers, each memory staying inside its address space. Every action of the framer, of the two paths and of step 6 moves a state
in this sense, and moves compose.
-/

namespace Sys2Proof.Machine

/-- From `s` to `t` only the data side of a transfer changed, and no memory left its address space. -/
structure Moves (s t : State) : Prop where
  frame : t = { s with buf := t.buf, crc := t.crc, pstore := t.pstore, vstore := t.vstore, reports := t.reports, calls := t.calls,
                       answers := t.answers, draws := t.draws }
  bufFits : s.buf.fits bufLen → t.buf.fits bufLen
  pstoreFits : s.pstore.fits (slotSize * 2 ^ 32) → t.pstore.fits (slotSize * 2 ^ 32)
  vstoreFits : s.vstore.fits (slotSize * 2 ^ 32) → t.vstore.fits (slotSize * 2 ^ 32)

theorem Moves.refl (s : State) : Moves s s := ⟨rfl, id, id, id⟩

theorem Moves.trans {s t u : State} (h : Moves s t) (k : Moves t u) : Moves s u where
  frame := by rw [k.frame, h.frame]
  bufFits := fun x => k.bufFits (h.bufFits x)
  pstoreFits := fun x => k.pstoreFits (h.pstoreFits x)
  vstoreFits := fun x => k.vstoreFits (h.vstoreFits x)

/-! ## What a move keeps -/

theorem Moves.params {s t : State} (h : Moves s t) : t.params = s.params := by rw [h.frame]
theorem Moves.drv0 {s t : State} (h : Moves s t) : t.drv0 = s.drv0 := by rw [h.frame]
theorem Moves.drv1 {s t : State} (h : Moves s t) : t.drv1 = s.drv1 := by rw [h.frame]
theorem Moves.drv {s t : State} (h : Moves s t) (d : DriveId) : t.drv d = s.drv d := State.drv_congr s t h.drv0 h.drv1 d
theorem Moves.pendingTrackDelta {s t : State} (h : Moves s t) : t.pendingTrackDelta = s.pendingTrackDelta := by rw [h.frame]
theorem Moves.trackChangedFlag {s t : State} (h : Moves s t) : t.trackChangedFlag = s.trackChangedFlag := by rw [h.frame]
theorem Moves.selector {s t : State} (h : Moves s t) : t.selector = s.selector := by rw [h.frame]
theorem Moves.out {s t : State} (h : Moves s t) : t.out = s.out := by rw [h.frame]
theorem Moves.inp {s t : State} (h : Moves s t) : t.inp = s.inp := by rw [h.frame]
theorem Moves.result {s t : State} (h : Moves s t) : t.result = s.result := by rw [h.frame]
theorem Moves.busyWait {s t : State} (h : Moves s t) : t.busyWait = s.busyWait := by rw [h.frame]
theorem Moves.trace {s t : State} (h : Moves s t) : t.trace = s.trace := by rw [h.frame]
theorem Moves.bufDraw {s t : State} (h : Moves s t) : t.bufDraw = s.bufDraw := by rw [h.frame]

/-! ## The actions -/

theorem Moves.putBuf (s : State) (off : Nat) (bs : List Byte) (h : off + bs.length ≤ 536) : Moves s (s.putBuf off bs) :=
  ⟨rfl, fun x => Memory.fits_writeBlock _ _ _ _ x h, id, id⟩

theorem Moves.copyBuf (s : State) (dst src len : Nat) (h : dst + len ≤ 536) : Moves s (s.copyBuf dst src len) :=
  Moves.putBuf s dst _ (by simpa using h)

theorem Moves.crcBlock (s : State) (off len : Nat) : Moves s (s.crcBlock off len) := ⟨rfl, id, id, id⟩

theorem Moves.crcPut (s : State) (off : Nat) (h : off + 2 ≤ 536) : Moves s (s.crcPut off) := Moves.putBuf s off _ h

theorem Moves.call (s : State) (c : Call) : Moves s (s.call c) := ⟨rfl, id, id, id⟩

theorem Moves.tookAnswer (s : State) : Moves s s.tookAnswer := ⟨rfl, id, id, id⟩

theorem Moves.foundRunning (s : State) : Moves s s.foundRunning := ⟨rfl, id, id, id⟩

theorem Moves.report (s : State) (c : Status) (d : DriveId) (off st : Nat) : Moves s (s.report c d off st) := ⟨rfl, id, id, id⟩

theorem Moves.drawBuf (s : State) (off : Nat) (c : Option (List Byte)) : Moves s (s.drawBuf off c) := by
  cases c with
  | none => exact Moves.refl s
  | some bs =>
    rw [State.drawBuf]
    split
    · exact Moves.putBuf s off _ (by rw [List.length_take, bufLen] at *; omega)
    · exact Moves.refl s

theorem Moves.tookNamed (s : State) (off len : Nat) : Moves s (s.tookNamed off len) := ⟨rfl, id, id, id⟩

theorem Moves.putNamed (s : State) (a : Nat) (b : Byte) : Moves s (s.putNamed a b) := by
  unfold State.putNamed
  split
  · exact Moves.putBuf s a [b] (by rw [bufLen] at *; simp only [List.length_singleton]; omega)
  · exact Moves.refl s

theorem Moves.putStore (s : State) (sp : Space) (a : Nat) (bs : List Byte) (h : a + bs.length ≤ slotSize * 2 ^ 32) :
    Moves s (s.putStore sp a bs) := by
  cases sp with
  | pstore => exact ⟨rfl, id, fun x => Memory.fits_writeBlock _ _ _ _ x h, id⟩
  | vstore => exact ⟨rfl, id, id, fun x => Memory.fits_writeBlock _ _ _ _ x h⟩

theorem Moves.buildHeader (s : State) (base : Nat) (t h sec n : Byte) (hb : base + 7 ≤ 536) :
    Moves s (s.buildHeader base t h sec n) :=
  (Moves.putBuf s base _ (by simp only [List.length_cons, List.length_nil]; omega)).trans
    ((Moves.crcBlock _ base 5).trans
      ((Moves.crcPut _ (base + 5) (by omega)).trans (Moves.putNamed _ (base + 7) _)))

theorem Moves.putTrailer (s : State) (off : Nat) (h : off + 3 ≤ 536) : Moves s (s.putTrailer off) :=
  (Moves.crcPut s off (by omega)).trans (Moves.putBuf _ (off + 2) _ (by simp only [List.length_singleton]; omega))

theorem Moves.frameFull (s : State) : Moves s s.frameFull :=
  (Moves.putBuf s 8 _ (by decide)).trans ((Moves.crcBlock _ 8 513).trans (Moves.putTrailer _ 521 (by decide)))

theorem Moves.frameFirstHalf (s : State) : Moves s s.frameFirstHalf :=
  (Moves.putBuf s 8 _ (by decide)).trans ((Moves.crcBlock _ 8 257).trans
    ((Moves.copyBuf _ 524 265 3 (by decide)).trans (Moves.putTrailer _ 265 (by decide))))

theorem Moves.frameSecondHalf (s : State) (d : DriveId) : Moves s (s.frameSecondHalf d) :=
  (Moves.copyBuf s 527 256 9 (by decide)).trans ((Moves.buildHeader _ 256 _ _ _ _ (by decide)).trans
    ((Moves.putBuf _ 264 _ (by decide)).trans ((Moves.crcBlock _ 264 257).trans (Moves.putTrailer _ 521 (by decide)))))

theorem Moves.transmitNamed (s : State) (d : DriveId) (base len : Nat) : Moves s (s.transmitNamed d base len) :=
  (Moves.call s _).trans (Moves.tookNamed _ base len)

theorem Moves.transmit (s : State) (d : DriveId) (base len : Nat) : Moves s (s.transmit d base len) := Moves.call s _

theorem Moves.readBack (s : State) (base len : Nat) : Moves s (s.readBack base len) :=
  (Moves.call s _).trans ((Moves.tookAnswer _).trans (Moves.drawBuf _ base _))

theorem Moves.readSlot (s : State) (sp : Space) (address : Nat) : Moves s (s.readSlot sp address).2 := by
  have h := (Moves.call s (.memRead sp address)).trans (Moves.tookAnswer _)
  unfold State.readSlot
  split
  · exact h.trans (Moves.putBuf _ 9 _ (by simp [slotSize]))
  · exact h.trans (Moves.drawBuf _ 9 _)

theorem Moves.writeSlot (s : State) (c : Call) (sp : Space) (address k : Nat) (bs : List Byte) (ha : address < 2 ^ 32)
    (hk : k + bs.length ≤ slotSize) : Moves s (s.writeSlot c sp address k bs).2 := by
  have h := (Moves.call s c).trans (Moves.tookAnswer _)
  unfold State.writeSlot
  split
  · exact h.trans (Moves.putStore _ sp _ _ (by simp only [slotSize] at *; omega))
  · cases hc : s.answer.content s.draws slotSize with
    | none => exact h
    | some bs =>
      exact h.trans (Moves.putStore _ sp _ _ (by rw [s.answer.content_length _ _ _ hc]; simp only [slotSize]; omega))

/-! ## The two paths and step 6 -/

/-- What address resolution names exists (R62, R63). -/
theorem State.resolve_bound (s : State) (half : Bool) (d : DriveId) :
    (∀ idx, s.resolve half d = .physical idx → idx < 2 ^ 32) ∧ (∀ v, s.resolve half d = .virtual v → v < 2 ^ 32) := by
  unfold State.resolve
  refine ⟨fun idx h => ?_, fun v h => ?_⟩
  · split at h
    · split at h
      · cases h; assumption
      · cases h
    · split at h
      · split at h <;> cases h
      · cases h
  · split at h
    · split at h <;> cases h
    · split at h
      · split at h
        · cases h
        · cases h; exact (s.drv d).lba.isLt
      · cases h

/-- Address resolution looks at the parameters, the drive and the platform inputs only. -/
theorem State.resolve_congr (s t : State) (half : Bool) (d : DriveId) (hd : t.drv d = s.drv d) (hi : t.inp = s.inp) :
    t.resolve half d = s.resolve half d := by
  have hv : t.vdisk d = s.vdisk d := by rw [State.vdisk, State.vdisk, hi]
  rw [State.resolve, State.resolve, hd, hv]

theorem Moves.finishRead (d : DriveId) (s : State) (r : Nat × State) (h : Moves s r.2) : Moves s (finishRead d r).2 := by
  unfold Machine.finishRead
  split
  · exact h
  · exact h.trans (Moves.report _ _ _ _ _)

theorem Moves.finishWrite (d : DriveId) (off : Nat) (s : State) (r : Nat × State) (h : Moves s r.2) :
    Moves s (finishWrite d off r).2 := by
  unfold Machine.finishWrite
  split
  · exact h
  · exact h.trans (Moves.report _ _ _ _ _)

theorem Moves.readSector (s : State) (d : DriveId) : Moves s (s.readSector d).2 := by
  unfold State.readSector
  split
  · exact Moves.finishRead d s _ (Moves.readSlot s _ _)
  · exact Moves.finishRead d s _ (Moves.readSlot s _ _)
  · exact Moves.refl s
  · exact Moves.refl s

theorem Moves.writeFull (s : State) (d : DriveId) : Moves s (s.writeFull d).2 := by
  have hc : Moves s s.checkedFull := Moves.crcBlock s 8 513
  obtain ⟨hp, hv⟩ := s.resolve_bound false d
  unfold State.writeFull
  split
  · split
    · rename_i idx h
      exact Moves.finishWrite d 0 s _ (hc.trans (Moves.writeSlot _ _ _ _ _ _ (hp _ h) (by simp [slotSize])))
    · rename_i v h
      exact Moves.finishWrite d 0 s _ (hc.trans (Moves.writeSlot _ _ _ _ _ _ (hv _ h) (by simp [slotSize])))
    · exact hc
    · exact hc
  · exact hc.trans (Moves.report _ _ _ _ _)

theorem Moves.writeHalf (s : State) (d : DriveId) (h off : Nat) (h2 : h < 2) : Moves s (s.writeHalf d h off).2 := by
  have hc : Moves s (s.checkedHalf h) := Moves.crcBlock s _ 257
  obtain ⟨hp, _⟩ := s.resolve_bound true d
  unfold State.writeHalf
  split
  · split
    · rename_i idx hi
      exact Moves.finishWrite d off s _ (hc.trans (Moves.writeSlot _ _ _ _ _ _ (hp _ hi) (by simp [slotSize]; omega)))
    · exact hc
    · exact hc
    · exact hc
  · exact hc.trans (Moves.report _ _ _ _ _)

theorem Moves.writeSector (s : State) (d : DriveId) : Moves s (s.writeSector d).2 := by
  unfold State.writeSector
  split
  · exact Moves.writeHalf s d _ 0 (Nat.mod_lt _ (by decide))
  · exact Moves.writeFull s d

theorem Moves.sendFull (s : State) (d : DriveId) : Moves s (s.sendFull d) :=
  (Moves.buildHeader s 0 _ _ _ _ (by decide)).trans ((Moves.frameFull _).trans (Moves.transmit _ d 0 524))

theorem Moves.slotFull (s : State) (d : DriveId) : Moves s (s.slotFull d).2 := by
  have h := (Moves.sendFull s d).trans (Moves.readBack _ 8 516)
  unfold State.slotFull
  split
  · exact h.trans (Moves.writeSector _ d)
  · exact h.trans (Moves.report _ _ _ _ _)

theorem Moves.sendFirst (s : State) (d : DriveId) : Moves s (s.sendFirst d) :=
  (Moves.buildHeader s 0 _ _ _ _ (by decide)).trans ((Moves.frameFirstHalf _).trans (Moves.transmit _ d 0 268))

theorem Moves.sendSecond (s : State) (d : DriveId) : Moves s (s.sendSecond d) :=
  (Moves.frameSecondHalf s d).trans (Moves.transmit _ d 256 268)

theorem Moves.verifyHalf (s : State) (d : DriveId) (h : Nat) (h2 : h < 2) : Moves s (s.verifyHalf d h).2 := by
  have hb : Moves s (s.readBack (halfBase h) 260) := Moves.readBack s _ _
  unfold State.verifyHalf
  split
  · exact hb.trans (Moves.writeHalf _ d h h h2)
  · exact hb.trans (Moves.report _ _ _ _ _)

theorem Moves.betweenHalves (s : State) (d : DriveId) : Moves s (s.betweenHalves d) :=
  (Moves.sendFirst s d).trans ((Moves.verifyHalf _ d 0 (by decide)).trans
    ((Moves.copyBuf _ 265 524 3 (by decide)).trans (Moves.sendSecond _ d)))

theorem Moves.slotPair (s : State) (d : DriveId) : Moves s (s.slotPair d).2 :=
  (Moves.betweenHalves s d).trans ((Moves.verifyHalf _ d 1 (by decide)).trans (Moves.copyBuf _ 256 527 9 (by decide)))

/-! ## Step 6 as one operation -/

/-- A composite that is done moved the state. -/
theorem Moves.runSlot512 (s t : State) (d : DriveId) (st : Status) (h : s.runSlot512 d = .done st t) : Moves s t := by
  unfold State.runSlot512 at h
  split at h
  · split at h
    · cases h
    · split at h
      · cases h
      · cases h; exact Moves.slotFull s d
  · cases h; exact Moves.report _ _ _ _ _

/-- A composite that is done moved the state. -/
theorem Moves.runSlot256 (s t : State) (d : DriveId) (st : Status) (h : s.runSlot256 d = .done st t) : Moves s t := by
  unfold State.runSlot256 at h
  split at h
  · split at h
    · cases h; exact Moves.refl s
    · split at h
      · cases h
      · split at h
        · cases h
        · cases h; exact Moves.slotPair s d
  · cases h; exact Moves.report _ _ _ _ _

theorem Moves.runSlot (s t : State) (d : DriveId) (st : Status) (h : s.runSlot d = .done st t) : Moves s t := by
  unfold State.runSlot at h
  split at h
  · exact Moves.runSlot256 s t d st h
  · exact Moves.runSlot512 s t d st h

/-- A composite waits only while WRITE_GATE is asserted. -/
theorem State.runSlot_waits (s : State) (d : DriveId) (h : s.runSlot d = .waits) : s.inp.writeGate = .asserted := by
  unfold State.runSlot State.runSlot256 State.runSlot512 at h
  by_contra hg
  simp only [hg, if_false] at h
  split at h <;> split at h <;> (try split at h) <;> (try split at h) <;> simp_all

end Sys2Proof.Machine
end

