-- ==== Sys2Proof/Laws/Exec.lean ====
section
/-!
SUPPORT. Everything an operation that answers a next state can do, said once (`exec_change`): an invariant over all operations is a case
analysis of `Change`, and unfolds no meaning.
-/

namespace Sys2Proof.Machine

/-- What a host operation on drive `d` makes of its geometry and `sector`: a successful load writes the one and keeps the other (R240, R246), every
other operation keeps the geometry, and keeps `sector` or writes 0 (R241, R245, R247). -/
inductive HostWrite (i : Instr) (d : DriveId) (x y : Drive) : Prop where
  | load (nt : Word16) (ns : Byte) (st : Word32) (ro : Bool) (hi : i = .imgLoad d nt ns st ro true ∨ i = .drvLoad d nt ns st ro true)
      (hy : y = { x with img := .loaded nt ns st ro })
  | keeps (hl : y.img.geometryLoaded = x.img.geometryLoaded) (ht : y.img.numTrack = x.img.numTrack) (hn : y.img.numSec = x.img.numSec)
      (hs : y.sector = x.sector ∨ y.sector = 0#8)

/-- How an operation changes the state. -/
inductive Change : Instr → State → State → Prop where
  /-- The data side of a transfer, and a result: CRC, framer, checkers, transceiver, both paths, step 6, the queries, a failed load. -/
  | data {i : Instr} {s : State} (u : State) (r : Returned) (hm : Moves s u) (hc : i.context = some .mainLoop) : Change i s (u.returning r)
  /-- A readback waits for WRITE_GATE. -/
  | waits {i : Instr} {s : State} (hw : waitsOnGate i = true) (hg : s.inp.writeGate = .asserted) : Change i s (s.waiting i)
  | bounce {s : State} (f : Byte) : Change (.stpEdge f) s s
  | edge {s : State} (f : Byte) (v : Word16) : Change (.stpEdge f) s { s with pendingTrackDelta := v, trackChangedFlag := true }
  | take {s : State} (r : Returned) : Change .posTake s (s.deltaCleared.returning r)
  | apply {s : State} (d : DriveId) (v : Word16) (hd : s.params.hasDrive d = true) :
      Change (.posApply d v) s (s.applyDelta d v).returningOk
  | select {s : State} (l : Byte) (sel : Selector) : Change (.selChg l) s { s with selector := sel }
  | dispatch {s : State} (d : DriveId) (hd : s.params.hasDrive d = true) (h0 : s.drv0.step = .idle) (h1 : s.drv1.step = .idle) :
      Change (.seqDisp d) s (s.setStep d .enter).returningOk
  /-- A sequencer operation that is not enabled (R194), or while the other drive is Selected (R44). -/
  | notEnabled {i : Instr} {s : State} (hc : i.context = some .mainLoop) : Change i s s
  | enter {s : State} (d : DriveId) (hd : s.params.hasDrive d = true) (ho : (s.other d).step = .idle) (hl : (s.drv d).img.geometryLoaded = true)
      (hg : geometryLegal (s.params.half d) (s.drv d).img = true) : Change (.seqEnter d) s (s.enterActions d).returningOk
  | check {s : State} (d : DriveId) (hd : s.params.hasDrive d = true) (ho : (s.other d).step = .idle) (x : SeqStep) (hx : x = .side ∨ x = .exit) :
      Change (.seqChk d) s (s.setStep d x).returningOk
  | side {s : State} (d : DriveId) (hd : s.params.hasDrive d = true) (ho : (s.other d).step = .idle) (b : BitVec 1) :
      Change (.seqSide d) s (s.setDrv d { s.drv d with side := b, step := .pos }).returningOk
  | position {s : State} (d : DriveId) (hd : s.params.hasDrive d = true) (ho : (s.other d).step = .idle) :
      Change (.seqPos d) s ((s.consumeDelta d).setStep d .lba).returningOk
  | address {s : State} (d : DriveId) (hd : s.params.hasDrive d = true) (ho : (s.other d).step = .idle) : Change (.seqLba d) s (s.computeLba d).returningOk
  | fetch {s : State} (d : DriveId) (u : State) (hd : s.params.hasDrive d = true) (ho : (s.other d).step = .idle) (hm : Moves s u) (x : SeqStep) (hx : x = .xfer ∨ x = .next) :
      Change (.seqFetch d) s (u.setStep d x).returningOk
  | transfer {s : State} (d : DriveId) (u : State) (hd : s.params.hasDrive d = true) (ho : (s.other d).step = .idle) (hm : Moves s u) :
      Change (.seqXfer d) s (u.setStep d .next).returningOk
  | advance {s : State} (d : DriveId) (hd : s.params.hasDrive d = true) (ho : (s.other d).step = .idle) : Change (.seqNext d) s (s.advanceSector d).returningOk
  | leave {s : State} (d : DriveId) (hd : s.params.hasDrive d = true) (ho : (s.other d).step = .idle) : Change (.seqExit d) s (s.exitActions d).returningOk
  /-- A host operation that writes a drive: only with every drive idle, and the drive stays idle. A successful load alone writes the geometry, and it
  keeps `sector`; the others keep `sector` or write 0. -/
  | host {i : Instr} {s : State} (d : DriveId) (x : Drive) (hc : i.context = some .mainLoop) (hp : Instr.position i = none)
      (h0 : s.drv0.step = .idle) (h1 : s.drv1.step = .idle) (hx : x.step = .idle)
      (hk : HostWrite i d (s.drv d) x) : Change i s (s.setDrv d x).returningOk
  | reset {s : State} : Change .sysReset s s.restarted

/-- A host operation that has an effect writes one drive and leaves it idle. -/
theorem Change.hostOp (i : Instr) (d : DriveId) (s t : State) (x : Drive) (hc : i.context = some .mainLoop)
    (hp : Instr.position i = none) (hx : x.step = (s.drv d).step) (hk : HostWrite i d (s.drv d) x)
    (h : onDrive d s (onIdle s (.next (s.setDrv d x).returningOk)) = .next t) : Change i s t := by
  rw [onDrive_next, onIdle_next] at h
  obtain ⟨_, ⟨h0, h1⟩, h⟩ := h
  cases h
  exact .host d x hc hp h0 h1 (hx.trans (State.drv_step_idle s h0 h1 d)) hk

/-- A host query returns a value and changes nothing. -/
theorem Change.hostQuery (i : Instr) (d : DriveId) (s t : State) (r : Returned) (hc : i.context = some .mainLoop)
    (h : onDrive d s (onIdle s (.next (s.returning r))) = .next t) : Change i s t := by
  rw [onDrive_next, onIdle_next] at h
  obtain ⟨_, _, h⟩ := h
  cases h
  exact .data s r (Moves.refl s) hc

/-- A load, successful or not. -/
theorem Change.hostLoad (i : Instr) (d : DriveId) (s t : State) (nt : Word16) (ns : Byte) (st : Word32) (ro ok : Bool)
    (hc : i.context = some .mainLoop) (hp : Instr.position i = none) (hi : i = .imgLoad d nt ns st ro ok ∨ i = .drvLoad d nt ns st ro ok)
    (h : onDrive d s (onIdle s (.next (s.loadImage d nt ns st ro ok))) = .next t) : Change i s t := by
  unfold State.loadImage at h
  split at h
  · rename_i hok
    exact Change.hostOp i d s t { s.drv d with img := .loaded nt ns st ro } hc hp rfl (.load nt ns st ro (by rw [← hok]; exact hi) rfl) h
  · exact Change.hostQuery i d s t _ hc h

theorem State.runSlot512_waits (s : State) (d : DriveId) (h : s.runSlot512 d = .waits) : s.inp.writeGate = .asserted := by
  unfold State.runSlot512 at h
  by_contra hg
  simp only [hg, if_false] at h
  split at h
  · split at h <;> cases h
  · cases h

theorem State.runSlot256_waits (s : State) (d : DriveId) (h : s.runSlot256 d = .waits) : s.inp.writeGate = .asserted := by
  unfold State.runSlot256 at h
  by_contra hg
  simp only [hg, if_false] at h
  split at h
  · split at h
    · cases h
    · split at h <;> cases h
  · cases h

/-- Everything an operation that answers a next state can do. -/
theorem exec_change (i : Instr) (s t : State) (h : exec i s = .next t) : Change i s t := by
  cases i with
  | crcRst => cases h; exact .data { s with crc := s.params.crcInit } _ ⟨rfl, id, id, id⟩ rfl
  | crcBit b => cases h; exact .data { s with crc := crcBit s.params.crcPoly s.crc (b.getLsbD 0) } _ ⟨rfl, id, id, id⟩ rfl
  | crcByte x => cases h; exact .data { s with crc := crcByte s.params.crcPoly s.crc x } _ ⟨rfl, id, id, id⟩ rfl
  | crcBlk off len =>
    obtain ⟨_, h⟩ := (onRange_next _ _ _ _).1 h
    cases h; exact .data _ _ (Moves.crcBlock s _ _) rfl
  | crcPut off =>
    obtain ⟨hr, h⟩ := (onRange_next _ _ _ _).1 h
    cases h; exact .data _ _ (Moves.crcPut s _ hr) rfl
  | crcCmp off =>
    obtain ⟨_, h⟩ := (onRange_next _ _ _ _).1 h
    cases h; exact .data s _ (Moves.refl s) rfl
  | frmHdr base a b c d =>
    obtain ⟨hr, h⟩ := (onRange_next _ _ _ _).1 h
    cases h; exact .data _ _ (Moves.buildHeader s _ _ _ _ _ hr) rfl
  | frmDat512 => cases h; exact .data _ _ (Moves.frameFull s) rfl
  | frmDat256A => cases h; exact .data _ _ (Moves.frameFirstHalf s) rfl
  | frmDat256B => cases h; exact .data _ _ ((Moves.foundRunning s).trans (Moves.frameSecondHalf _ _)) rfl
  | hdrChk base =>
    change (if _ then _ else _) = _ at h
    split at h
    · obtain ⟨_, h⟩ := (onRange_next _ _ _ _).1 h
      cases h; exact .data _ _ (Moves.crcBlock s _ _) rfl
    · cases h; exact .data _ _ (Moves.tookNamed s _ _) rfl
  | datChk512 => cases h; exact .data _ _ (Moves.crcBlock s 8 513) rfl
  | datChk256 x => cases h; exact .data _ _ (Moves.crcBlock s _ 257) rfl
  | xcvTx base len => cases h; exact .data _ _ ((Moves.foundRunning s).trans (Moves.transmitNamed _ _ _ _)) rfl
  | xcvRb base len =>
    change (if _ then _ else _) = _ at h
    split at h
    · rename_i hg
      cases h; exact .waits rfl hg
    · cases h; exact .data _ _ (Moves.readBack s _ _) rfl
  | frmSlot512 d =>
    obtain ⟨_, h⟩ := (onDrive_next _ _ _ _).1 h
    split at h
    · rename_i hw
      cases h; exact .waits rfl (s.runSlot512_waits d hw)
    · cases h
    · rename_i st u hu
      cases h; exact .data u _ (Moves.runSlot512 s u d st hu) rfl
  | frmSlot256 d =>
    obtain ⟨_, h⟩ := (onDrive_next _ _ _ _).1 h
    split at h
    · rename_i hw
      cases h; exact .waits rfl (s.runSlot256_waits d hw)
    · cases h
    · rename_i st u hu
      cases h; exact .data u _ (Moves.runSlot256 s u d st hu) rfl
  | stpEdge f =>
    rcases execStpEdge_next f s t h with ⟨_, rfl⟩ | ⟨_, _, ht⟩
    · exact .bounce f
    · rw [ht]; exact .edge f _
  | posTake => cases h; exact .take _
  | posApply d v =>
    obtain ⟨hd, h⟩ := (onDrive_next _ _ _ _).1 h
    cases h; exact .apply d v hd
  | selChg l => cases h; exact .select l _
  | seqEnter d =>
    obtain ⟨hd, ⟨ho, h⟩ | rfl⟩ := onSequencer_next _ _ _ _ h
    rotate_left; · exact .notEnabled rfl
    split at h
    · rename_i hl
      split at h
      · rename_i hg
        cases h; exact .enter d hd ho hl hg
      · cases h
    · cases h
  | seqChk d =>
    obtain ⟨hd, ⟨ho, h⟩ | rfl⟩ := onSequencer_next _ _ _ _ h
    rotate_left; · exact .notEnabled rfl
    cases h; exact .check d hd ho _ (by split <;> simp)
  | seqSide d =>
    obtain ⟨hd, ⟨ho, h⟩ | rfl⟩ := onSequencer_next _ _ _ _ h
    rotate_left; · exact .notEnabled rfl
    cases h; exact .side d hd ho _
  | seqPos d =>
    obtain ⟨hd, ⟨ho, h⟩ | rfl⟩ := onSequencer_next _ _ _ _ h
    rotate_left; · exact .notEnabled rfl
    cases h; exact .position d hd ho
  | seqLba d =>
    obtain ⟨hd, ⟨ho, h⟩ | rfl⟩ := onSequencer_next _ _ _ _ h
    rotate_left; · exact .notEnabled rfl
    cases h; exact .address d hd ho
  | seqFetch d =>
    obtain ⟨hd, ⟨ho, h⟩ | rfl⟩ := onSequencer_next _ _ _ _ h
    rotate_left; · exact .notEnabled rfl
    split at h
    · cases h
    · cases h
      exact .fetch d _ hd ho (Moves.readSector s d) _ (by unfold stepAfterFetch; split <;> simp)
  | seqXfer d =>
    obtain ⟨hd, ⟨ho, h⟩ | rfl⟩ := onSequencer_next _ _ _ _ h
    rotate_left; · exact .notEnabled rfl
    split at h
    · rename_i hw
      cases h; exact .waits rfl (s.runSlot_waits d hw)
    · cases h
    · rename_i st u hu
      cases h; exact .transfer d u hd ho (Moves.runSlot s u d st hu)
  | seqNext d =>
    obtain ⟨hd, ⟨ho, h⟩ | rfl⟩ := onSequencer_next _ _ _ _ h
    rotate_left; · exact .notEnabled rfl
    cases h; exact .advance d hd ho
  | seqExit d =>
    obtain ⟨hd, ⟨ho, h⟩ | rfl⟩ := onSequencer_next _ _ _ _ h
    rotate_left; · exact .notEnabled rfl
    cases h; exact .leave d hd ho
  | seqDisp d =>
    obtain ⟨hd, h⟩ := (onDrive_next _ _ _ _).1 h
    split at h
    · rename_i he
      obtain ⟨h0, h1, _⟩ := (s.dispatchEnabled_iff d).1 he
      cases h; exact .dispatch d hd h0 h1
    · cases h; exact .notEnabled rfl
  | secRd d =>
    obtain ⟨_, h⟩ := (onDrive_next _ _ _ _).1 h
    split at h
    · cases h
    · cases h; exact .data _ _ (Moves.readSector s d) rfl
  | secWr d =>
    obtain ⟨_, h⟩ := (onDrive_next _ _ _ _).1 h
    split at h
    · cases h
    · cases h; exact .data _ _ (Moves.writeSector s d) rfl
  | imgLoad d nt ns st ro ok => exact Change.hostLoad _ d s t nt ns st ro ok rfl rfl (.inl rfl) h
  | imgEject d => exact Change.hostOp _ d s t { s.drv d with img := (s.drv d).img.ejected } rfl rfl rfl (.keeps rfl rfl rfl (.inl rfl)) h
  | imgRdy d => exact Change.hostQuery _ d s t _ rfl h
  | imgRo d => exact Change.hostQuery _ d s t _ rfl h
  | imgChg d => exact Change.hostQuery _ d s t _ rfl h
  | imgClrchg d =>
    exact Change.hostOp _ d s t
      { s.drv d with img := { (s.drv d).img with flags := (s.drv d).img.flags.clrChanged } } rfl rfl rfl (.keeps rfl rfl rfl (.inl rfl)) h
  | drvLoad d nt ns st ro ok => exact Change.hostLoad _ d s t nt ns st ro ok rfl rfl (.inr rfl) h
  | drvEject d => exact Change.hostOp _ d s t (s.drv d).ejected rfl rfl rfl (.keeps rfl rfl rfl (.inr rfl)) h
  | sysReset => cases h; exact .reset
  | frameId a b c d e => cases h
  | frameData512 p c => cases h
  | frameData256 p c => cases h

end Sys2Proof.Machine
end

