-- ==== Sys2Proof/Laws/Storage.lean ====
section
/-!
SUPPORT. What the CRC tests of the write paths compare, what address resolution answers, and everything the end of each path can do; and when
the two invariants carry over to a state that agrees in what they read.
-/

namespace Sys2Proof.Machine

/-! ## The CRC tests -/

/-- A block computed, then compared with two bytes: both sides spelled out. -/
theorem State.crcBlock_matches_iff (s : State) (off len at0 : Nat) :
    (s.crcBlock off len).crcMatches at0 = true ↔
      s.bufByte at0 = hi8 (crcBytes s.params.crcPoly s.params.crcInit (s.bufRange off len)) ∧
      s.bufByte (at0 + 1) = lo8 (crcBytes s.params.crcPoly s.params.crcInit (s.bufRange off len)) := by
  rw [State.crcMatches_iff]; rfl

/-- `DAT.CHK512` as the rule writes it (R145). -/
theorem State.fullMatches_iff (s : State) :
    s.fullMatches = true ↔
      s.bufByte 521 = hi8 (crcBytes s.params.crcPoly s.params.crcInit (s.bufRange 8 513)) ∧
      s.bufByte 522 = lo8 (crcBytes s.params.crcPoly s.params.crcInit (s.bufRange 8 513)) := by
  unfold State.fullMatches State.checkedFull
  exact s.crcBlock_matches_iff 8 513 521

/-- `DAT.CHK256 h` as the rule writes it (R146). -/
theorem State.halfMatches_iff (s : State) (h : Nat) :
    s.halfMatches h = true ↔
      s.bufByte (halfBase h + 257) = hi8 (crcBytes s.params.crcPoly s.params.crcInit (s.bufRange (halfBase h) 257)) ∧
      s.bufByte (halfBase h + 258) = lo8 (crcBytes s.params.crcPoly s.params.crcInit (s.bufRange (halfBase h) 257)) := by
  unfold State.halfMatches State.checkedHalf
  exact s.crcBlock_matches_iff (halfBase h) 257 (halfBase h + 257)

/-! ## Address resolution (R221) -/

theorem State.resolve_ready (s : State) (half : Bool) (d : DriveId) (hr : (s.drv d).img.flags.ready = true)
    (h : physicalIndex half (s.drv d) < 2 ^ 32) : s.resolve half d = .physical (physicalIndex half (s.drv d)) := by
  rw [State.resolve, if_pos hr, if_pos h]

theorem State.resolve_ready_past (s : State) (half : Bool) (d : DriveId) (hr : (s.drv d).img.flags.ready = true)
    (h : 2 ^ 32 ≤ physicalIndex half (s.drv d)) : s.resolve half d = .stop .addressOutsideModel := by
  rw [State.resolve, if_pos hr, if_neg (Nat.not_lt.2 h)]

theorem State.resolve_virtual (s : State) (d : DriveId) (hr : (s.drv d).img.flags.ready = false) (hv : s.vdisk d = true) :
    s.resolve false d = .virtual (s.drv d).lba.toNat := by
  rw [State.resolve, hr, if_neg (by decide), if_pos hv]; rfl

theorem State.resolve_virtual_half (s : State) (d : DriveId) (hr : (s.drv d).img.flags.ready = false) (hv : s.vdisk d = true) :
    s.resolve true d = .stop .halfSectorOnVirtualStore := by
  rw [State.resolve, hr, if_neg (by decide), if_pos hv]; rfl

theorem State.resolve_noMedia (s : State) (half : Bool) (d : DriveId) (hr : (s.drv d).img.flags.ready = false)
    (hv : s.vdisk d = false) : s.resolve half d = .noMedia := by
  rw [State.resolve, hr, if_neg (by decide), hv, if_neg (by decide)]

/-- A write goes ahead unless its data passed its test and its target is one the model refuses (U3, U8; R226: the test comes first). -/
theorem State.writeStop_goes (s : State) (half : Bool) (d : DriveId) (clean : Bool)
    (h : ∀ r, s.resolve half d = .stop r → clean = false) : s.writeStop half d clean = none := by
  unfold State.writeStop
  cases hr : s.resolve half d with
  | stop r => rw [h r hr]; rfl
  | physical idx => rfl
  | virtual v => rfl
  | noMedia => rfl

/-- A target that is none the model refuses stops no write. -/
theorem State.writeStop_none (s : State) (half : Bool) (d : DriveId) (clean : Bool) (h : ∀ r, s.resolve half d ≠ .stop r) :
    s.writeStop half d clean = none := s.writeStop_goes half d clean fun r hr => absurd hr (h r)

/-- A mismatch stops no write: the address is never resolved (R226). -/
theorem State.writeStop_mismatch (s : State) (half : Bool) (d : DriveId) : s.writeStop half d false = none :=
  s.writeStop_goes half d false fun _ _ => rfl

/-- Data that passed its test is refused on a target the model refuses (U3, U8). -/
theorem State.writeStop_refused (s : State) (half : Bool) (d : DriveId) (r : Refusal) (h : s.resolve half d = .stop r) :
    s.writeStop half d true = some r := by
  rw [State.writeStop, h]; rfl

/-! ## The ends of the two paths -/

/-- The record a report appends. -/
theorem State.report_eq (s : State) (c : Status) (d : DriveId) (off st : Nat) :
    s.report c d off st = { s with
      reports := s.reports ++ [{ code := c, d := d, track := (s.drv d).track, side := (s.drv d).side,
                                 sec := (s.drv d).sector.toNat + off, lba := (s.drv d).lba.toNat + off, st := st }] } := rfl

/-- Everything the read path can do once it has its slot (R220, R222). -/
theorem finishRead_spec (s : State) (d : DriveId) (sp : Space) (address : Nat) :
    let r := finishRead d (s.readSlot sp address)
    r.2 = { s with buf := r.2.buf, reports := r.2.reports, calls := s.calls ++ [.memRead sp address], answers := s.answers.tail,
                   draws := s.draws + 1 } ∧
    (∀ a, a < 9 ∨ 521 ≤ a → r.2.bufByte a = s.bufByte a) ∧
    (s.answer.st = 0 → r.1 = .ok ∧ r.2.reports = s.reports ∧ r.2.bufRange 9 512 = s.slotBytes sp address) ∧
    (s.answer.st ≠ 0 → r.1 = .storageReadError ∧
      r.2.reports = s.reports ++ [{ code := .storageReadError, d := d, track := (s.drv d).track, side := (s.drv d).side,
                                    sec := (s.drv d).sector.toNat, lba := (s.drv d).lba.toNat, st := s.answer.st }]) := by
  obtain ⟨h1, h2, h3, h4⟩ := s.readSlot_spec sp address
  generalize s.readSlot sp address = r0 at h1 h2 h3 h4
  have hd : r0.2.drv d = s.drv d := by rw [h2]; cases d <;> rfl
  intro r
  by_cases h0 : s.answer.st = 0
  · have hr : r = (.ok, r0.2) := by simp [r, finishRead, h1, h0]
    rw [hr]
    exact ⟨by rw [h2], h3, fun _ => ⟨rfl, by rw [h2], h4 h0⟩, fun h => absurd h0 h⟩
  · have hr : r = (.storageReadError, r0.2.report .storageReadError d 0 s.answer.st) := by simp [r, finishRead, h1, h0]
    rw [hr]
    refine ⟨by rw [State.report_eq, h2], h3, fun h => absurd h h0, fun _ => ⟨rfl, ?_⟩⟩
    rw [State.report_eq, hd]
    show r0.2.reports ++ _ = _
    rw [h2]; rfl

/-- Everything a write path can do once it has its slot (R225, R228): the frame, the other store, the slot, and the report. -/
theorem finishWrite_spec (s : State) (d : DriveId) (c : Call) (sp : Space) (address k off : Nat) (bs : List Byte)
    (h : k + bs.length ≤ 512) :
    let r := finishWrite d off (s.writeSlot c sp address k bs)
    r.2 = { s with pstore := r.2.pstore, vstore := r.2.vstore, reports := r.2.reports, calls := s.calls ++ [c],
                   answers := s.answers.tail, draws := s.draws + 1 } ∧
    (∀ sq, sq ≠ sp → r.2.store sq = s.store sq) ∧
    (∀ a, a < 512 * address ∨ 512 * address + 512 ≤ a → r.2.storeByte sp a = s.storeByte sp a) ∧
    (s.answer.st = 0 → r.1 = .ok ∧ r.2.reports = s.reports ∧
      (∀ j, (hj : j < bs.length) → r.2.storeByte sp (512 * address + k + j) = bs[j]) ∧
      ∀ a, a < 512 * address + k ∨ 512 * address + k + bs.length ≤ a → r.2.storeByte sp a = s.storeByte sp a) ∧
    (s.answer.st ≠ 0 → r.1 = .storageWriteError ∧
      r.2.reports = s.reports ++ [{ code := .storageWriteError, d := d, track := (s.drv d).track, side := (s.drv d).side,
                                    sec := (s.drv d).sector.toNat + off, lba := (s.drv d).lba.toNat + off, st := s.answer.st }]) := by
  obtain ⟨h1, h2, h3, h4, h5⟩ := s.writeSlot_spec c sp address k bs h
  generalize s.writeSlot c sp address k bs = r0 at h1 h2 h3 h4 h5
  have hd : r0.2.drv d = s.drv d := by rw [h2]; cases d <;> rfl
  intro r
  by_cases h0 : s.answer.st = 0
  · have hr : r = (.ok, r0.2) := by simp [r, finishWrite, h1, h0]
    rw [hr]
    exact ⟨by rw [h2], h3, h4, fun _ => ⟨rfl, by rw [h2], (h5 h0).1, (h5 h0).2⟩, fun h => absurd h0 h⟩
  · have hr : r = (.storageWriteError, r0.2.report .storageWriteError d off s.answer.st) := by simp [r, finishWrite, h1, h0]
    rw [hr]
    refine ⟨by rw [State.report_eq, h2], h3, h4, fun h => absurd h h0, fun _ => ⟨rfl, ?_⟩⟩
    rw [State.report_eq, hd]
    show r0.2.reports ++ _ = _
    rw [h2]

/-! ## The invariants -/

/-- The data invariant reads six fields. -/
theorem State.wf_congr {s t : State} (w : s.wf) (hb : t.buf = s.buf) (hp : t.pstore = s.pstore) (hv : t.vstore = s.vstore)
    (hf : t.trackChangedFlag = false → t.pendingTrackDelta = 0#16) (hw : ∀ i, t.busyWait = some i → waitsOnGate i = true) : t.wf where
  buf := by rw [hb]; exact w.buf
  pstore := by rw [hp]; exact w.pstore
  vstore := by rw [hv]; exact w.vstore
  flagCoversDelta := hf
  waiting := hw

/-- The session invariant reads the parameters, the drives and the busy-wait. -/
theorem State.session_congr {s t : State} (w : s.session) (hp : t.params = s.params) (hd : ∀ d, t.drv d = s.drv d)
    (hb : ∀ i, t.busyWait = some i → inOrder i s) : t.session where
  oneSelected := by
    have h0 : t.drv0 = s.drv0 := hd .drive0
    have h1 : t.drv1 = s.drv1 := hd .drive1
    rw [h0, h1]; exact w.oneSelected
  present := fun d h => by rw [hp]; rw [hd] at h; exact w.present d h
  geometry := fun d h => by rw [hp]; rw [hd] at h ⊢; exact w.geometry d h
  waitInOrder := fun i hi d x h => by rw [hd]; exact hb i hi d x h

end Sys2Proof.Machine
end

