-- ==== Sys2Proof/Laws/HalfPair.lean ====
section
/-!
SUPPORT. Step 6 (spec/41_framer.md, R147, R150, R156): what is framed and transmitted, what each half of a pair can do and what a clean half does;
and that what the framer has framed passes its CRC test when the readback leaves the buffer as it is.
-/

namespace Sys2Proof.Machine

/-- Half-sector folding never names a slot of the virtual store (R223). -/
theorem State.resolve_half_not_virtual (s : State) (d : DriveId) (v : Nat) : s.resolve true d ≠ .virtual v := by
  unfold State.resolve
  split
  · split <;> simp
  · split <;> simp

/-! ## Calls, reports and answers -/

/-- The next collaborator call gets the first answer. -/
theorem State.answerAfter_zero (s : State) : s.answerAfter 0 = s.answer := rfl

/-- After `k` calls the answers are counted from there. -/
theorem State.answerAfter_add (s t : State) (k n : Nat) (ha : t.answers = s.answers.drop k) (hd : t.draws = s.draws + k) :
    t.answerAfter n = s.answerAfter (k + n) := by
  unfold State.answerAfter State.answer
  simp only [ha, hd, List.drop_drop, Nat.add_assoc]

/-- The record depends on the drive alone. -/
theorem State.record_congr (s t : State) (d : DriveId) (h : Nat) (c : Status) (st : Nat) (hd : t.drv d = s.drv d) :
    t.record d h c st = s.record d h c st := by
  unfold State.record; rw [hd]

/-- A half's data field begins at 8 and 264 (R146). -/
theorem halfBase_eq (h : Nat) (h2 : h < 2) : halfBase h = 8 + 256 * h := by
  rcases (by omega : h = 0 ∨ h = 1) with rfl | rfl <;> rfl

/-- The CRC test of a half, by its offsets in `BUF` (R146, R156). -/
theorem State.halfMatches_passes (s : State) (h : Nat) (h2 : h < 2) :
    s.halfMatches h = true ↔
      s.bufByte (265 + 256 * h) = hi8 (crcBytes s.params.crcPoly s.params.crcInit (s.bufRange (8 + 256 * h) 257)) ∧
      s.bufByte (266 + 256 * h) = lo8 (crcBytes s.params.crcPoly s.params.crcInit (s.bufRange (8 + 256 * h) 257)) := by
  have e1 : halfBase h + 257 = 265 + 256 * h := by rw [halfBase_eq h h2]; omega
  have e2 : halfBase h + 258 = 266 + 256 * h := by rw [halfBase_eq h h2]; omega
  have hm := s.halfMatches_iff h
  rwa [e1, e2, halfBase_eq h h2] at hm

/-- Everything `HALF.WR` can do where it is not refused (R156, U3, U8: a refused target stops only data that passes its test). -/
theorem State.writeHalf_written (s : State) (d : DriveId) (h off : Nat) (h2 : h < 2)
    (hs : ∀ r, s.resolve true d = .stop r → s.halfMatches h = false) :
    s.halfWritten (s.writeHalf d h off).2 d h off (s.writeHalf d h off).1 := by
  unfold State.halfWritten
  intro c passes
  have hcf : s.checkedHalf h = { s with crc := c } := by unfold c; rw [← halfBase_eq h h2]; rfl
  have hm : s.halfMatches h = true ↔ passes := s.halfMatches_passes h h2
  clear_value passes c
  rw [← hm]
  refine ⟨fun hp => ?_, fun hp hr => ?_, fun hp idx hr => ?_⟩
  · have : s.writeHalf d h off = (.crcMismatch, (s.checkedHalf h).report .crcMismatch d off 0) := by simp [State.writeHalf, hp]
    rw [this, hcf]
    exact ⟨rfl, by cases d <;> rfl⟩
  · have : s.writeHalf d h off = (.ok, s.checkedHalf h) := by simp [State.writeHalf, hp, hr]
    rw [this, hcf]
    exact ⟨rfl, rfl⟩
  · have hw : s.writeHalf d h off =
        finishWrite d off ((s.checkedHalf h).writeSlot (.halfWrite idx h) .pstore idx (256 * h) (s.bufRange (9 + 256 * h) 256)) := by
      simp [State.writeHalf, hp, hr]
    rw [hcf] at hw
    obtain ⟨a1, a2, a3, a4, a5⟩ := finishWrite_spec ({ s with crc := c } : State) d (.halfWrite idx h) .pstore idx (256 * h) off
      (s.bufRange (9 + 256 * h) 256) (by simp; omega)
    rw [← hw] at a1 a2 a3 a4 a5
    have hv : (s.writeHalf d h off).2.vstore = s.vstore := a2 .vstore (by decide)
    refine ⟨by rw [a1, hv], a3, fun h0 => ?_, fun h0 => ?_⟩
    · obtain ⟨b1, b2, b3, b4⟩ := a4 h0
      exact ⟨b1, b2, fun k hk => by rw [b3 k (by simpa using hk), State.getElem_bufRange], fun a ha => b4 a (by simpa using ha)⟩
    · obtain ⟨b1, b2⟩ := a5 h0
      exact ⟨b1, by rw [b2]; cases d <;> rfl⟩

/-- The frame of `HALF.WR`, its slot, and how many calls and answers it takes: at most one, none with no medium. -/
theorem State.halfWritten.frame {r u : State} {d : DriveId} {h off : Nat} {st : Status} (e : r.halfWritten u d h off st) (h2 : h < 2)
    (hs : ∀ x, r.resolve true d = .stop x → r.halfMatches h = false) :
    u = { r with crc := u.crc, pstore := u.pstore, reports := u.reports, calls := u.calls, answers := u.answers, draws := u.draws } ∧
    (∀ idx, r.resolve true d = .physical idx →
      ∀ a, a < 512 * idx ∨ 512 * idx + 512 ≤ a → u.storeByte .pstore a = r.storeByte .pstore a) ∧
    ((∀ idx, r.resolve true d ≠ .physical idx) → u.pstore = r.pstore) ∧
    ∃ w, u.calls = r.calls ++ w ∧ u.answers = r.answers.drop w.length ∧ u.draws = r.draws + w.length ∧ w.length ≤ 1 ∧
      (r.resolve true d = .noMedia → w = []) := by
  obtain ⟨e1, e2, e3⟩ := e
  rw [← r.halfMatches_passes h h2] at e1 e2 e3
  have still : ∀ (c : Word16) (l : List Report), u = { r with crc := c, reports := l } →
      u = { r with crc := u.crc, pstore := u.pstore, reports := u.reports, calls := u.calls, answers := u.answers, draws := u.draws } ∧
      u.pstore = r.pstore ∧ u.calls = r.calls ++ [] ∧ u.answers = r.answers.drop 0 ∧ u.draws = r.draws + 0 := by
    rintro c l rfl
    exact ⟨rfl, rfl, (List.append_nil _).symm, rfl, rfl⟩
  have same : u.pstore = r.pstore → ∀ a, u.storeByte .pstore a = r.storeByte .pstore a := fun h a => by
    unfold State.storeByte State.store; rw [h]
  by_cases hp : r.halfMatches h = true
  · cases hr : r.resolve true d with
    | stop x => rw [hs x hr] at hp; cases hp
    | virtual v => exact absurd hr (State.resolve_half_not_virtual r d v)
    | noMedia =>
      obtain ⟨k1, k2, k3, k4, k5⟩ := still _ r.reports (e2 hp hr).2
      exact ⟨k1, nofun, fun _ => k2, [], k3, k4, k5, by simp, fun _ => rfl⟩
    | physical idx =>
      obtain ⟨f1, f2, -⟩ := e3 hp idx hr
      refine ⟨by rw [f1], fun i hi a ha => by cases hi; exact f2 a ha, fun hn => absurd rfl (hn idx), [.halfWrite idx h], by rw [f1],
        by rw [f1]; exact List.drop_one.symm, by rw [f1]; rfl, by simp, nofun⟩
  · obtain ⟨k1, k2, k3, k4, k5⟩ := still _ _ (e1 hp).2
    exact ⟨k1, fun _ _ a _ => same k2 a, fun _ => k2, [], k3, k4, k5, by simp, fun _ => rfl⟩

/-- Everything one half after its transmission can do (R150): what it ends with (`halfVerified`), the frame, `BUF` and the slot, and its calls. -/
theorem State.verifyHalf_spec (s : State) (d : DriveId) (h : Nat) (h2 : h < 2)
    (hs : ∀ r, s.resolve true d = .stop r → s.verifyHalfClean h = false) :
    let u := s.verifyHalf d h
    (s.readBack (halfBase h) 260).halfVerified u.2 d h s.readbackOk u.1 ∧
    u.2 = { s with buf := u.2.buf, crc := u.2.crc, pstore := u.2.pstore, reports := u.2.reports, calls := u.2.calls, answers := u.2.answers, draws := u.2.draws } ∧
    (∀ a, a < halfBase h ∨ halfBase h + 260 ≤ a → u.2.bufByte a = s.bufByte a) ∧
    (s.answer.keep = true → ∀ a, u.2.bufByte a = s.bufByte a) ∧
    (∀ idx, s.resolve true d = .physical idx →
        ∀ a, a < 512 * idx ∨ 512 * idx + 512 ≤ a → u.2.storeByte .pstore a = s.storeByte .pstore a) ∧
    ((∀ idx, s.resolve true d ≠ .physical idx) → u.2.pstore = s.pstore) ∧
    ∃ w, u.2.calls = s.calls ++ .readback (halfBase h) 260 :: w ∧ u.2.answers = s.answers.drop (1 + w.length) ∧
      u.2.draws = s.draws + (1 + w.length) ∧ w.length ≤ 1 ∧ ((s.resolve true d = .noMedia ∨ s.answer.st ≠ 0) → w = []) := by
  intro u
  obtain ⟨b1, b2, -, b4⟩ := State.readBack_spec s (halfBase h) 260
  have hd : (s.readBack (halfBase h) 260).drv d = s.drv d := by rw [b4]; cases d <;> rfl
  have hres := State.resolve_congr s _ true d hd (by rw [b4])
  have hps : ∀ a, (s.readBack (halfBase h) 260).storeByte .pstore a = s.storeByte .pstore a := by intro a; rw [b4]; rfl
  have hkeep : s.answer.keep = true → ∀ a, (s.readBack (halfBase h) 260).bufByte a = s.bufByte a :=
    fun hk => State.bufByte_congr s _ (b2 hk) (by rw [b4])
  have hcl : (s.readBack (halfBase h) 260).calls = s.calls ++ [.readback (halfBase h) 260] := by rw [b4]
  have han : (s.readBack (halfBase h) 260).answers = s.answers.drop 1 := by rw [b4]; exact List.drop_one.symm
  have hdr : (s.readBack (halfBase h) 260).draws = s.draws + 1 := by rw [b4]
  by_cases hk : s.readbackOk = true
  · have hu : u = (s.readBack (halfBase h) 260).writeHalf d h h := by simp [u, State.verifyHalf, hk]
    have h0 : s.answer.st = 0 := by simpa [State.readbackOk] using hk
    have hst : ∀ r, (s.readBack (halfBase h) 260).resolve true d = .stop r → (s.readBack (halfBase h) 260).halfMatches h = false :=
      fun r hr => by have := hs r (hres.symm.trans hr); rwa [State.verifyHalfClean, hk, Bool.true_and] at this
    have e := State.writeHalf_written (s.readBack (halfBase h) 260) d h h h2 hst
    obtain ⟨c1, c2, c3, w, c4, c5, c6, c7, c8⟩ := e.frame h2 hst
    rw [← hu] at e c1 c2 c3 c4 c5 c6
    rw [hres] at c2 c3 c8
    generalize s.readBack (halfBase h) 260 = v at *
    have hb : ∀ a, u.2.bufByte a = v.bufByte a := fun a => by rw [c1]; rfl
    exact ⟨⟨fun h => (by rw [hk] at h; cases h), fun _ => e⟩, by rw [c1, b4], fun a ha => (hb a).trans (b1 a ha),
      fun hk a => (hb a).trans (hkeep hk a), fun i hi a ha => by rw [c2 i hi a ha, hps],
      fun h => by rw [c3 h, b4], w, by rw [c4, hcl, List.append_assoc]; rfl, by rw [c5, han, List.drop_drop],
      by rw [c6, hdr, Nat.add_assoc], c7, fun h => h.elim c8 fun h => absurd h0 h⟩
  · have hu : u = (.transceiverReadback, (s.readBack (halfBase h) 260).report .transceiverReadback d h 0) := by simp [u, State.verifyHalf, hk]
    rw [hu]
    generalize s.readBack (halfBase h) 260 = v at *
    exact ⟨⟨fun _ => ⟨rfl, rfl⟩, fun h => absurd h hk⟩, by rw [State.report_eq, b4], fun a ha => b1 a ha, hkeep, fun i hi a ha => by rw [← hps]; rfl,
      fun h => by show v.pstore = _; rw [b4], [], hcl, han, hdr, by simp, fun _ => rfl⟩

/-- `FRM.SLOT256` on an even sector index runs the pair (R150), unless a half that passed its test goes to a target the model refuses. -/
theorem exec_frmSlot256_even (s : State) (d : DriveId) (h1 : s.params.hasDrive d = true) (h2 : s.supported d = true) (h3 : (s.drv d).sector.toNat % 2 = 0)
    (h4 : s.inp.writeGate = .released) (h5 : ∀ r, s.resolve true d = .stop r → s.slotPairClean d = false) :
    exec (.frmSlot256 d) s = .next ((s.slotPair d).2.returning (.status (s.slotPair d).1)) := by
  have ho : (s.drv d).oddSector = false := by
    cases h : (s.drv d).oddSector with
    | false => rfl
    | true => rw [Drive.oddSector_iff] at h; omega
  have hr : s.runSlot256 d = .done (s.slotPair d).1 (s.slotPair d).2 := by
    simp [State.runSlot256, h2, ho, h4, State.writeStop_goes s true d _ h5]
  show execFrmSlot256 d s = _
  rw [execFrmSlot256, onDrive_has d s _ h1, hr]

/-! ## What is framed and transmitted -/

/-- A field list laid out as `idFieldOf` gives it. -/
theorem State.idFieldOf_eq (s : State) (d : DriveId) (k : Nat) (n : Byte) :
    s.idFieldOf d k n = [0xFE#8, trackByte (s.drv d), sideByte (s.drv d), sectorByte (s.drv d) k, n,
      hi8 (crcBytes s.params.crcPoly s.params.crcInit [0xFE#8, trackByte (s.drv d), sideByte (s.drv d), sectorByte (s.drv d) k, n]),
      lo8 (crcBytes s.params.crcPoly s.params.crcInit [0xFE#8, trackByte (s.drv d), sideByte (s.drv d), sectorByte (s.drv d) k, n]), 0x4E#8] := rfl

/-- The first half framed and transmitted (R142, R150). -/
theorem State.sendFirst_spec (s : State) (d : DriveId) :
    let u := s.sendFirst d
    let c := crcBytes s.params.crcPoly s.params.crcInit (0xFB#8 :: s.bufRange 9 256)
    u.crc = c ∧ u.bufByte 8 = 0xFB#8 ∧ u.bufByte 265 = hi8 c ∧ u.bufByte 266 = lo8 c ∧
    (∀ k, k < 3 → u.bufByte (524 + k) = s.bufByte (265 + k)) ∧
    (∀ a, 9 ≤ a → a < 265 ∨ (268 ≤ a ∧ a < 524) ∨ 527 ≤ a → u.bufByte a = s.bufByte a) ∧
    u.bufRange 0 268 = s.halfFrames d 0 ∧
    u = { s with buf := u.buf, crc := u.crc, calls := s.calls ++ [.transmit (s.halfFrames d 0) (s.drv d).bitLength] } := by
  intro u c
  obtain ⟨-, a2, a3, a4⟩ := State.buildHeader_spec s 0 (trackByte (s.drv d)) (sideByte (s.drv d)) (sectorByte (s.drv d) 1) 1#8 (by decide)
  have hu : u = ((s.buildHeader 0 (trackByte (s.drv d)) (sideByte (s.drv d)) (sectorByte (s.drv d) 1) 1#8).frameFirstHalf).transmit d 0 268 := rfl
  generalize (s.buildHeader 0 (trackByte (s.drv d)) (sideByte (s.drv d)) (sectorByte (s.drv d) 1) 1#8) = w at a2 a3 a4 hu
  obtain ⟨b1, b2, b3, b4, b5, b6, b7, b8⟩ := State.frameFirstHalf_spec w
  have hr : w.bufRange 9 256 = s.bufRange 9 256 := State.bufRange_eq s w 9 256 fun a h1 h2 => a3 a (by omega)
  have hp : w.params = s.params := by rw [a4]
  rw [hr, hp] at b1 b3 b4
  generalize w.frameFirstHalf = v at *
  have hf : v.bufRange 0 268 = s.halfFrames d 0 := by
    rw [show (268 : Nat) = 8 + 260 from rfl, State.bufRange_append, State.bufRange_eq w v 0 8 fun a h1 h2 => b7 a (by omega) (by omega), a2,
      ← State.idFieldOf_eq, State.bufRange_dataField v (0 + 8) 256 _ b2 b3 b4 b5,
      State.bufRange_eq w v (0 + 8 + 1) 256 fun a h1 h2 => b7 a (by omega) (by omega), hr]
    rfl
  have hd : v.drv d = s.drv d := by rw [b8, a4]; cases d <;> rfl
  rw [hu]
  refine ⟨b1, b2, b3, b4, fun k hk => (b6 k hk).trans (a3 _ (by omega)), fun a h9 ha => (b7 a (by omega) (by omega)).trans (a3 a (by omega)), hf, ?_⟩
  show State.call v (.transmit (v.bufRange 0 268) (v.drv d).bitLength) = _
  rw [hf, hd]
  unfold State.call
  rw [b8, a4]; rfl

/-- The second half framed and transmitted (R143, R150), in a state that still has the drive and the second half's payload of `s`. -/
theorem State.sendSecond_spec (s t : State) (d : DriveId) (hd : t.drv d = s.drv d) (hp : t.params = s.params)
    (hr : t.bufRange 265 256 = s.bufRange 265 256) :
    let u := t.sendSecond d
    let c := crcBytes s.params.crcPoly s.params.crcInit (0xFB#8 :: s.bufRange 265 256)
    u.bufByte 264 = 0xFB#8 ∧ u.bufByte 521 = hi8 c ∧ u.bufByte 522 = lo8 c ∧
    (∀ k, k < 9 → u.bufByte (527 + k) = t.bufByte (256 + k)) ∧
    (∀ a, a < 256 ∨ (265 ≤ a ∧ a < 521) ∨ (524 ≤ a ∧ a < 527) ∨ 536 ≤ a → u.bufByte a = t.bufByte a) ∧
    u.bufRange 256 268 = s.halfFrames d 1 ∧
    u = { t with buf := u.buf, crc := u.crc, calls := t.calls ++ [.transmit (s.halfFrames d 1) (s.drv d).bitLength] } := by
  intro u c
  obtain ⟨-, b2, b3, b4, b5, b6, b7, b8, b9⟩ := State.frameSecondHalf_spec t d
  have hu : u = (t.frameSecondHalf d).transmit d 256 268 := rfl
  generalize t.frameSecondHalf d = v at *
  rw [hd, hp] at b2
  rw [hr, hp] at b4 b5
  have hf : v.bufRange 256 268 = s.halfFrames d 1 := by
    rw [show (268 : Nat) = 8 + 260 from rfl, State.bufRange_append, b2,
      ← State.idFieldOf_eq, State.bufRange_dataField v (256 + 8) 256 _ b3 b4 b5 b6,
      State.bufRange_eq t v (256 + 8 + 1) 256 fun a h1 h2 => b8 a (by omega), hr]
    rfl
  have hvd : v.drv d = s.drv d := by rw [b9, ← hd]; cases d <;> rfl
  rw [hu]
  refine ⟨b3, b4, b5, b7, b8, hf, ?_⟩
  show State.call v (.transmit (v.bufRange 256 268) (v.drv d).bitLength) = _
  rw [hf, hvd]
  unfold State.call
  rw [b9]; rfl

/-- A full slot framed and transmitted (R147). -/
theorem State.sendFull_spec (s : State) (d : DriveId) :
    let u := s.sendFull d
    let c := crcBytes s.params.crcPoly s.params.crcInit (0xFB#8 :: s.bufRange 9 512)
    u.bufByte 8 = 0xFB#8 ∧ u.bufByte 521 = hi8 c ∧ u.bufByte 522 = lo8 c ∧
    (∀ a, (9 ≤ a ∧ a < 521) ∨ 524 ≤ a → u.bufByte a = s.bufByte a) ∧ u.bufRange 0 524 = s.fullFrames d ∧
    u = { s with buf := u.buf, crc := u.crc, calls := s.calls ++ [.transmit (s.fullFrames d) (s.drv d).bitLength] } := by
  intro u c
  obtain ⟨-, a2, a3, a4⟩ := State.buildHeader_spec s 0 (trackByte (s.drv d)) (sideByte (s.drv d)) (sectorByte (s.drv d) 1) 2#8 (by decide)
  have hu : u = ((s.buildHeader 0 (trackByte (s.drv d)) (sideByte (s.drv d)) (sectorByte (s.drv d) 1) 2#8).frameFull).transmit d 0 524 := rfl
  generalize (s.buildHeader 0 (trackByte (s.drv d)) (sideByte (s.drv d)) (sectorByte (s.drv d) 1) 2#8) = w at a2 a3 a4 hu
  obtain ⟨-, b2, b3, b4, b5, b6, b7⟩ := State.frameFull_spec w
  have hr : w.bufRange 9 512 = s.bufRange 9 512 := State.bufRange_eq s w 9 512 fun a h1 h2 => a3 a (by omega)
  have hp : w.params = s.params := by rw [a4]
  rw [hr, hp] at b3 b4
  generalize w.frameFull = v at *
  have hf : v.bufRange 0 524 = s.fullFrames d := by
    rw [show (524 : Nat) = 8 + 516 from rfl, State.bufRange_append, State.bufRange_eq w v 0 8 fun a h1 h2 => b6 a (by omega) (by omega), a2,
      ← State.idFieldOf_eq, State.bufRange_dataField v (0 + 8) 512 _ b2 b3 b4 b5,
      State.bufRange_eq w v (0 + 8 + 1) 512 fun a h1 h2 => b6 a (by omega) (by omega), hr]
    rfl
  have hd : v.drv d = s.drv d := by rw [b7, a4]; cases d <;> rfl
  rw [hu]
  refine ⟨b2, b3, b4, fun a ha => (b6 a (by omega) (by omega)).trans (a3 a (by omega)), hf, ?_⟩
  show State.call v (.transmit (v.bufRange 0 524) (v.drv d).bitLength) = _
  rw [hf, hd]
  unfold State.call
  rw [b7, a4]; rfl

/-- A clean half under a readback that answers OK and keeps the buffer: it is written with one call. When the store answers 0 its payload is in its half of
the slot, nothing else of the slot has changed, and nothing is reported. -/
theorem State.verifyHalf_clean (s : State) (d : DriveId) (h idx : Nat) (h2 : h < 2) (a p : Answer) (rest : List Answer)
    (ha : s.answers = a :: p :: rest) (h0 : a.st = 0) (hk : a.keep = true) (hm : s.halfMatches h = true)
    (hr : s.resolve true d = .physical idx) :
    let r := s.verifyHalf d h
    r.2 = { s with crc := r.2.crc, pstore := r.2.pstore, reports := r.2.reports, draws := r.2.draws, answers := rest,
                   calls := s.calls ++ [.readback (halfBase h) 260, .halfWrite idx h] } ∧
    (p.st = 0 → r.1 = .ok ∧ r.2.reports = s.reports ∧
      (∀ k, k < 256 → r.2.storeByte .pstore (512 * idx + 256 * h + k) = s.bufByte (9 + 256 * h + k)) ∧
      (∀ x, x < 512 * idx + 256 * h ∨ 512 * idx + 256 * h + 256 ≤ x → r.2.storeByte .pstore x = s.storeByte .pstore x)) := by
  intro r
  have hans : s.answer = a := by unfold State.answer; rw [ha]
  have hok : s.readbackOk = true := by simp [State.readbackOk, hans, h0]
  obtain ⟨-, b2, -, b4⟩ := State.readBack_spec s (halfBase h) 260
  have b2 := b2 (by rw [hans]; exact hk)
  rw [b2, ha] at b4
  have hw : r = (s.readBack (halfBase h) 260).writeHalf d h h := by simp [r, State.verifyHalf, hok]
  generalize s.readBack (halfBase h) 260 = w at *
  have hd : w.drv d = s.drv d := by rw [b4]; cases d <;> rfl
  have hi : w.inp = s.inp := by rw [b4]
  have hres := (State.resolve_congr s w true d hd hi).trans hr
  have hb : ∀ x, w.bufByte x = s.bufByte x := State.bufByte_congr s w b2 (by rw [b4])
  have hpar : w.params = s.params := by rw [b4]
  have hmw : w.halfMatches h = true := by
    rw [State.halfMatches_iff] at hm ⊢
    rw [hb, hb, hpar, State.bufRange_eq s w _ _ fun x _ _ => hb x]
    exact hm
  obtain ⟨c, hcf⟩ : ∃ c, w.checkedHalf h = { w with crc := c } := ⟨_, rfl⟩
  have hfin : r = finishWrite d h (({ w with crc := c } : State).writeSlot (.halfWrite idx h) .pstore idx (256 * h) (w.bufRange (9 + 256 * h) 256)) := by
    rw [hw, ← hcf]; simp [State.writeHalf, hmw, hres]
  obtain ⟨a1, a2, -, a4, -⟩ := finishWrite_spec ({ w with crc := c } : State) d (.halfWrite idx h) .pstore idx (256*h) h (w.bufRange (9 + 256 * h) 256) (by simp; omega)
  rw [← hfin] at a1 a2 a4
  have hwa : ({ w with crc := c } : State).answer = p := by rw [b4]; rfl
  have hv : r.2.vstore = w.vstore := a2 .vstore (by decide)
  refine ⟨?_, fun hp => ?_⟩
  · rw [a1, hv, b4]; simp
  · obtain ⟨e1, e2, e3, e4⟩ := a4 (by rw [hwa]; exact hp)
    refine ⟨e1, by rw [e2, b4], fun k hk => ?_, fun x hx => ?_⟩
    · rw [e3 k (by simpa using hk), State.getElem_bufRange, hb]
    · rw [e4 x (by simpa using hx)]
      show w.storeByte .pstore x = _
      rw [b4]; rfl

/-! ## The readback that leaves the buffer as it is -/

/-- What stands in `BUF` after such a readback, and what stays. -/
theorem State.readBack_keep (s : State) (base len : Nat) (hk : s.answer.keep = true) :
    (s.readBack base len).params = s.params ∧ (s.readBack base len).drv0 = s.drv0 ∧ (s.readBack base len).drv1 = s.drv1 ∧
    (∀ a, (s.readBack base len).bufByte a = s.bufByte a) := by
  obtain ⟨-, h2, -, h4⟩ := s.readBack_spec base len
  have h2 := h2 hk
  refine ⟨by rw [h4], by rw [h4], by rw [h4], State.bufByte_congr s _ h2 (by rw [h4])⟩

/-- A full slot that is read back as it was framed passes its CRC test (R147). -/
theorem State.slotFullClean_keep (s : State) (d : DriveId) (hh : s.params.half d = false) (h0 : s.answer.st = 0)
    (hk : s.answer.keep = true) : s.slotFullClean d = true := by
  obtain ⟨f2, f3, f4, f6, -, f7⟩ := State.sendFull_spec s d
  have hans : (s.sendFull d).answer = s.answer := by unfold State.answer; rw [f7]
  have hp : (s.sendFull d).params = s.params := by rw [f7]
  obtain ⟨k1, -, -, k4⟩ := (s.sendFull d).readBack_keep 8 516 (by rw [hans]; exact hk)
  unfold State.slotFullClean State.readbackOk State.writeMatches
  rw [hans, h0, k1, hp, hh, if_neg (by decide), Bool.and_eq_true, State.fullMatches_iff]
  refine ⟨rfl, ?_⟩
  have hr : ((s.sendFull d).readBack 8 516).bufRange 8 513 = 0xFB#8 :: s.bufRange 9 512 := by
    show State.bufRange _ 8 (512 + 1) = _
    rw [State.bufRange_succ, k4, f2]
    exact congrArg _ (State.bufRange_eq s _ 9 512 fun a h1 h2 => by rw [k4, f6 a (by omega)])
  rw [hr, k1, hp, k4, k4]
  exact ⟨f3, f4⟩

/-- A first half that is read back as it was framed passes its CRC test (R150). -/
theorem State.slotPairClean_keep (s : State) (d : DriveId) (h0 : s.answer.st = 0) (hk : s.answer.keep = true) :
    s.slotPairClean d = true := by
  obtain ⟨-, f2, f3, f4, -, f6, -, f7⟩ := State.sendFirst_spec s d
  have hans : (s.sendFirst d).answer = s.answer := by
    unfold State.answer; rw [f7]
  have hp : (s.sendFirst d).params = s.params := by rw [f7]
  have hv : (s.sendFirst d).verifyHalfClean 0 = true := by
    obtain ⟨k1, -, -, k4⟩ := (s.sendFirst d).readBack_keep (halfBase 0) 260 (by rw [hans]; exact hk)
    unfold State.verifyHalfClean State.readbackOk
    rw [hans, h0, Bool.and_eq_true, State.halfMatches_iff]
    refine ⟨rfl, ?_⟩
    have hr : ((s.sendFirst d).readBack (halfBase 0) 260).bufRange 8 257 = 0xFB#8 :: s.bufRange 9 256 := by
      show State.bufRange _ 8 (256 + 1) = _
      rw [State.bufRange_succ, k4, f2]
      exact congrArg _ (State.bufRange_eq s _ 9 256 fun a h1 h2 => by rw [k4, f6 a (by omega) (by omega)])
    show State.bufByte _ 265 = hi8 (crcBytes _ _ (State.bufRange _ 8 257)) ∧ State.bufByte _ 266 = lo8 (crcBytes _ _ (State.bufRange _ 8 257))
    rw [hr, k1, hp, k4, k4]
    exact ⟨f3, f4⟩
  unfold State.slotPairClean
  rw [hv, Bool.true_or]

end Sys2Proof.Machine
end

