-- ==== Sys2Proof/Laws/PerInstr.lean ====
section
/-!
SUPPORT. Decoding an encoded instruction gives it back, one lemma per constructor: the family RoundTrip of LAWS.json.
-/

namespace Sys2Proof.Laws.RoundTrip

/-- The decoder reads a well-formed instruction back from its encoding. -/
def Statement (i : Instr) : Prop := i.wellFormed = true → decodeLine (encode i) = .ok (.op i)

theorem crcRst : Statement (.crcRst) := fun _ => rfl

theorem crcBit (b : Byte) : Statement (.crcBit b) := fun _ => rfl

theorem crcByte (b : Byte) : Statement (.crcByte b) := fun _ => rfl

theorem crcBlk (v w : Word16) : Statement (.crcBlk v w) := by
  intro _
  show Except.ok (TraceItem.op (.crcBlk (word16 (hi8 v) (lo8 v)) (word16 (hi8 w) (lo8 w)))) = _
  simp

theorem crcPut (w : Word16) : Statement (.crcPut w) := by
  intro _
  show Except.ok (TraceItem.op (.crcPut (word16 (hi8 w) (lo8 w)))) = _
  simp

theorem crcCmp (w : Word16) : Statement (.crcCmp w) := by
  intro _
  show Except.ok (TraceItem.op (.crcCmp (word16 (hi8 w) (lo8 w)))) = _
  simp

theorem frmHdr (base : Word16) (t h sec n : Byte) : Statement (.frmHdr base t h sec n) := by
  intro _
  show Except.ok (TraceItem.op (.frmHdr (word16 (hi8 base) (lo8 base)) t h sec n)) = _
  simp

theorem frmDat512 : Statement (.frmDat512) := fun _ => rfl

theorem frmDat256A : Statement (.frmDat256A) := fun _ => rfl

theorem frmDat256B : Statement (.frmDat256B) := fun _ => rfl

theorem hdrChk (w : Word16) : Statement (.hdrChk w) := by
  intro _
  show Except.ok (TraceItem.op (.hdrChk (word16 (hi8 w) (lo8 w)))) = _
  simp

theorem datChk512 : Statement (.datChk512) := fun _ => rfl

theorem datChk256 (b : Byte) : Statement (.datChk256 b) := fun _ => rfl

theorem xcvTx (v w : Word16) : Statement (.xcvTx v w) := by
  intro _
  show Except.ok (TraceItem.op (.xcvTx (word16 (hi8 v) (lo8 v)) (word16 (hi8 w) (lo8 w)))) = _
  simp

theorem xcvRb (v w : Word16) : Statement (.xcvRb v w) := by
  intro _
  show Except.ok (TraceItem.op (.xcvRb (word16 (hi8 v) (lo8 v)) (word16 (hi8 w) (lo8 w)))) = _
  simp

theorem frmSlot512 (d : DriveId) : Statement (.frmSlot512 d) := by cases d <;> exact fun _ => rfl

theorem frmSlot256 (d : DriveId) : Statement (.frmSlot256 d) := by cases d <;> exact fun _ => rfl

theorem stpEdge (b : Byte) : Statement (.stpEdge b) := fun _ => rfl

theorem posTake : Statement (.posTake) := fun _ => rfl

theorem posApply (d : DriveId) (w : Word16) : Statement (.posApply d w) := by
  intro _
  show withDrive (driveByte d) (fun d => .op (.posApply d (word16 (hi8 w) (lo8 w)))) = _
  simp

theorem selChg (b : Byte) : Statement (.selChg b) := fun _ => rfl

theorem seqEnter (d : DriveId) : Statement (.seqEnter d) := by cases d <;> exact fun _ => rfl

theorem seqChk (d : DriveId) : Statement (.seqChk d) := by cases d <;> exact fun _ => rfl

theorem seqSide (d : DriveId) : Statement (.seqSide d) := by cases d <;> exact fun _ => rfl

theorem seqPos (d : DriveId) : Statement (.seqPos d) := by cases d <;> exact fun _ => rfl

theorem seqLba (d : DriveId) : Statement (.seqLba d) := by cases d <;> exact fun _ => rfl

theorem seqFetch (d : DriveId) : Statement (.seqFetch d) := by cases d <;> exact fun _ => rfl

theorem seqXfer (d : DriveId) : Statement (.seqXfer d) := by cases d <;> exact fun _ => rfl

theorem seqNext (d : DriveId) : Statement (.seqNext d) := by cases d <;> exact fun _ => rfl

theorem seqExit (d : DriveId) : Statement (.seqExit d) := by cases d <;> exact fun _ => rfl

theorem seqDisp (d : DriveId) : Statement (.seqDisp d) := by cases d <;> exact fun _ => rfl

theorem secRd (d : DriveId) : Statement (.secRd d) := by cases d <;> exact fun _ => rfl

theorem secWr (d : DriveId) : Statement (.secWr d) := by cases d <;> exact fun _ => rfl

theorem imgLoad (d : DriveId) (numTrack : Word16) (numSec : Byte) (startSector : Word32) (ro ok : Bool) : Statement (.imgLoad d numTrack numSec startSector ro ok) := by
  intro _
  show withDrive (driveByte d) (fun d => .op (.imgLoad d (word16 (hi8 numTrack) (lo8 numTrack)) numSec
    (word32 (hi8 (hi16 startSector)) (lo8 (hi16 startSector)) (hi8 (lo16 startSector)) (lo8 (lo16 startSector)))
    (boolOf (boolByte ro)) (boolOf (boolByte ok)))) = _
  simp [word32]

theorem imgEject (d : DriveId) : Statement (.imgEject d) := by cases d <;> exact fun _ => rfl

theorem imgRdy (d : DriveId) : Statement (.imgRdy d) := by cases d <;> exact fun _ => rfl

theorem imgRo (d : DriveId) : Statement (.imgRo d) := by cases d <;> exact fun _ => rfl

theorem imgChg (d : DriveId) : Statement (.imgChg d) := by cases d <;> exact fun _ => rfl

theorem imgClrchg (d : DriveId) : Statement (.imgClrchg d) := by cases d <;> exact fun _ => rfl

theorem drvLoad (d : DriveId) (numTrack : Word16) (numSec : Byte) (startSector : Word32) (ro ok : Bool) : Statement (.drvLoad d numTrack numSec startSector ro ok) := by
  intro _
  show withDrive (driveByte d) (fun d => .op (.drvLoad d (word16 (hi8 numTrack) (lo8 numTrack)) numSec
    (word32 (hi8 (hi16 startSector)) (lo8 (hi16 startSector)) (hi8 (lo16 startSector)) (lo8 (lo16 startSector)))
    (boolOf (boolByte ro)) (boolOf (boolByte ok)))) = _
  simp [word32]

theorem drvEject (d : DriveId) : Statement (.drvEject d) := by cases d <;> exact fun _ => rfl

theorem sysReset : Statement (.sysReset) := fun _ => rfl

theorem frameId (t h sec n : Byte) (crc : Word16) : Statement (.frameId t h sec n crc) := by
  intro _
  show Except.ok (TraceItem.op (.frameId t h sec n (word16 (hi8 crc) (lo8 crc)))) = _
  simp

theorem frameData512 (payload : List Byte) (crc : Word16) : Statement (.frameData512 payload crc) := by
  intro h
  have hl : payload.length = 512 := by simpa [Instr.wellFormed] using h
  show dataField (payload ++ [hi8 crc, lo8 crc, 0x4E#8]) = _
  simp [dataField, hl, dataFieldOf_encoded]

theorem frameData256 (payload : List Byte) (crc : Word16) : Statement (.frameData256 payload crc) := by
  intro h
  have hl : payload.length = 256 := by simpa [Instr.wellFormed] using h
  show dataField (payload ++ [hi8 crc, lo8 crc, 0x4E#8]) = _
  simp [dataField, hl, dataFieldOf_encoded]

end Sys2Proof.Laws.RoundTrip
end

