-- ==== Sys2Proof/Tests/Slice0.lean ====
section
/-!
SUPPORT. The model's own tests: the well-formedness checks, a written-out line for every constructor, one-step vectors, and the witnesses
that the statements' hypotheses can be met. Expected values are those of spec/95_test_vectors.md (V-…, P1 to P4) or of the rule a test names.
-/

open Sys2Proof Sys2Proof.Machine

namespace Sys2Proof.Tests

/-! ## Well-formedness: an ill-formed term for each check -/

theorem test_ill_crcBlk : (Instr.crcBlk 536#16 1#16).wellFormed = false := by decide
theorem test_ill_crcPut : (Instr.crcPut 535#16).wellFormed = false := by decide
theorem test_ill_crcCmp : (Instr.crcCmp 535#16).wellFormed = false := by decide
theorem test_ill_frmHdr : (Instr.frmHdr 529#16 0#8 0#8 1#8 2#8).wellFormed = false := by decide
theorem test_ill_hdrChk : (Instr.hdrChk 530#16).wellFormed = false := by decide
theorem test_ill_datChk256 : (Instr.datChk256 2#8).wellFormed = false := by decide
theorem test_ill_xcvTx : (Instr.xcvTx 0#16 537#16).wellFormed = false := by decide
theorem test_ill_xcvRb : (Instr.xcvRb 65535#16 1#16).wellFormed = false := by decide
theorem test_ill_frameId : (Instr.frameId 0#8 0#8 1#8 3#8 0xDA4E#16).wellFormed = false := by decide
theorem test_ill_frameData512 : (Instr.frameData512 (List.replicate 511 0#8) 0#16).wellFormed = false := by decide +kernel
theorem test_ill_frameData256 : (Instr.frameData256 (List.replicate 257 0#8) 0#16).wellFormed = false := by decide +kernel

/-- The largest operands the same checks accept. -/
theorem test_wellFormed_edges :
    (Instr.crcBlk 536#16 0#16).wellFormed ∧ (Instr.crcBlk 0#16 536#16).wellFormed ∧ (Instr.crcPut 534#16).wellFormed ∧
    (Instr.crcCmp 534#16).wellFormed ∧ (Instr.frmHdr 528#16 0#8 0#8 1#8 2#8).wellFormed ∧ (Instr.hdrChk 529#16).wellFormed ∧
    (Instr.datChk256 1#8).wellFormed ∧ (Instr.xcvTx 256#16 280#16).wellFormed ∧ (Instr.frameId 0#8 0#8 1#8 2#8 0xCA6F#16).wellFormed := by
  decide

/-! ## Decoding: lines written out from R104's table (the programs of spec/95 write the same bytes) -/

theorem test_decode_crc :
    decodeLine [0x00#8] = .ok (.op .crcRst) ∧ decodeLine [0x01#8, 0x01#8] = .ok (.op (.crcBit 1#8)) ∧
    decodeLine [0x02#8, 0xFE#8] = .ok (.op (.crcByte 0xFE#8)) ∧
    decodeLine [0x03#8, 0x00#8, 0x08#8, 0x02#8, 0x01#8] = .ok (.op (.crcBlk 8#16 513#16)) ∧
    decodeLine [0x04#8, 0x02#8, 0x09#8] = .ok (.op (.crcPut 521#16)) ∧
    decodeLine [0x05#8, 0x02#8, 0x09#8] = .ok (.op (.crcCmp 521#16)) := by decide

/-- P1 and P3, "Expansion of the first slot below the sequencer level". -/
theorem test_decode_framer :
    decodeLine [0x10#8, 0x01#8, 0x00#8, 0x03#8, 0x04#8, 0x05#8, 0x01#8] = .ok (.op (.frmHdr 256#16 3#8 4#8 5#8 1#8)) ∧
    decodeLine [0x11#8] = .ok (.op .frmDat512) ∧ decodeLine [0x12#8] = .ok (.op .frmDat256A) ∧
    decodeLine [0x13#8] = .ok (.op .frmDat256B) ∧ decodeLine [0x14#8, 0x01#8, 0x00#8] = .ok (.op (.hdrChk 256#16)) ∧
    decodeLine [0x15#8] = .ok (.op .datChk512) ∧ decodeLine [0x16#8, 0x01#8] = .ok (.op (.datChk256 1#8)) ∧
    decodeLine [0x17#8, 0x00#8, 0x00#8, 0x02#8, 0x0C#8] = .ok (.op (.xcvTx 0#16 524#16)) ∧
    decodeLine [0x18#8, 0x01#8, 0x08#8, 0x01#8, 0x04#8] = .ok (.op (.xcvRb 264#16 260#16)) ∧
    decodeLine [0x19#8, 0x00#8] = .ok (.op (.frmSlot512 .drive0)) ∧
    decodeLine [0x1A#8, 0x01#8] = .ok (.op (.frmSlot256 .drive1)) := by decide

theorem test_decode_position :
    decodeLine [0x20#8, 0x02#8] = .ok (.op .stepIn) ∧ decodeLine [0x20#8, 0x03#8] = .ok (.op .stepOut) ∧
    decodeLine [0x21#8] = .ok (.op .posTake) ∧
    decodeLine [0x22#8, 0x00#8, 0x01#8, 0x2C#8] = .ok (.op (.posApply .drive0 300#16)) := by decide

theorem test_decode_sequencer :
    decodeLine [0x30#8, 0x01#8] = .ok (.op (.selChg 0b001#8)) ∧ decodeLine [0x31#8, 0x00#8] = .ok (.op (.seqEnter .drive0)) ∧
    decodeLine [0x32#8, 0x01#8] = .ok (.op (.seqChk .drive1)) ∧ decodeLine [0x33#8, 0x00#8] = .ok (.op (.seqSide .drive0)) ∧
    decodeLine [0x34#8, 0x00#8] = .ok (.op (.seqPos .drive0)) ∧ decodeLine [0x35#8, 0x01#8] = .ok (.op (.seqLba .drive1)) ∧
    decodeLine [0x36#8, 0x00#8] = .ok (.op (.seqFetch .drive0)) ∧ decodeLine [0x37#8, 0x01#8] = .ok (.op (.seqXfer .drive1)) ∧
    decodeLine [0x38#8, 0x00#8] = .ok (.op (.seqNext .drive0)) ∧ decodeLine [0x39#8, 0x00#8] = .ok (.op (.seqExit .drive0)) ∧
    decodeLine [0x3A#8, 0x01#8] = .ok (.op (.seqDisp .drive1)) := by decide

theorem test_decode_storage :
    decodeLine [0x40#8, 0x00#8] = .ok (.op (.secRd .drive0)) ∧ decodeLine [0x41#8, 0x01#8] = .ok (.op (.secWr .drive1)) := by decide

/-- The two loads are lines of P4 and P3. -/
theorem test_decode_host :
    decodeLine [0x50#8, 0x01#8, 0x00#8, 0x50#8, 0x09#8, 0x00#8, 0x00#8, 0x05#8, 0xA0#8, 0x00#8, 0x01#8]
      = .ok (.op (.imgLoad .drive1 80#16 9#8 1440#32 false true)) ∧
    decodeLine [0x51#8, 0x00#8] = .ok (.op (.imgEject .drive0)) ∧ decodeLine [0x52#8, 0x00#8] = .ok (.op (.imgRdy .drive0)) ∧
    decodeLine [0x53#8, 0x00#8] = .ok (.op (.imgRo .drive0)) ∧ decodeLine [0x54#8, 0x01#8] = .ok (.op (.imgChg .drive1)) ∧
    decodeLine [0x55#8, 0x00#8] = .ok (.op (.imgClrchg .drive0)) ∧
    decodeLine [0x56#8, 0x00#8, 0x00#8, 0x28#8, 0x12#8, 0x00#8, 0x00#8, 0x03#8, 0xE8#8, 0x01#8, 0x00#8]
      = .ok (.op (.drvLoad .drive0 40#16 18#8 1000#32 true false)) ∧
    decodeLine [0x57#8, 0x01#8] = .ok (.op (.drvEject .drive1)) ∧ decodeLine [0x60#8] = .ok (.op .sysReset) := by decide

/-- V-FRM-1 and V-FRM-2: the frames as the framer leaves them. -/
theorem test_decode_frames :
    decodeLine [0xFE#8, 0x4F#8, 0x01#8, 0x09#8, 0x02#8, 0xCE#8, 0x84#8, 0x4E#8]
      = .ok (.op (.frameId 0x4F#8 1#8 9#8 2#8 0xCE84#16)) ∧
    decodeLine (0xFB#8 :: (List.replicate 512 0xE5#8 ++ [0xC4#8, 0x0B#8, 0x4E#8]))
      = .ok (.op (.frameData512 (List.replicate 512 0xE5#8) 0xC40B#16)) ∧
    decodeLine (0xFB#8 :: (List.replicate 256 0xA5#8 ++ [0x03#8, 0xF0#8, 0x4E#8]))
      = .ok (.op (.frameData256 (List.replicate 256 0xA5#8) 0x03F0#16)) := by decide +kernel

/-- R106's environment lines; R105's reserved selectors; R104's lengths and drive numbers; R100's gap byte. -/
theorem test_decode_rest :
    decodeLine [0x70#8, 0x01#8] = .ok (.envSide true) ∧ decodeLine [0x71#8, 0x00#8] = .ok (.envWgate false) ∧
    decodeLine [0x72#8, 0x01#8, 0x01#8] = .ok (.envVdisk .drive1 true) ∧ decodeLine [0x73#8, 0x01#8] = .ok (.envDir true) ∧
    decodeLine [] = .error .emptyLine ∧ decodeLine [0x06#8] = .error (.reservedSelector 0x06) ∧
    decodeLine [0x61#8, 0x00#8] = .error (.reservedSelector 0x61) ∧ decodeLine [0x00#8, 0x00#8] = .error (.wrongLength 1) ∧
    decodeLine [0x32#8, 0x02#8] = .error (.noDrive 2) ∧
    decodeLine [0xFE#8, 0x00#8, 0x00#8, 0x01#8, 0x02#8, 0xCA#8, 0x6F#8, 0x00#8] = .error .badGap ∧
    decodeLine [0xFB#8, 0x00#8] = .error (.badFieldLength 1) := by decide

/-- Numbered as the opcode table numbers them: the first byte is bits 7..0. -/
theorem test_tableWord :
    decodeTableWord 40 0x0102080003 = some (.crcBlk 8#16 513#16) ∧ decodeTableWord 8 0x32 = some (.seqChk .drive0) ∧
    decodeTableWord 8 0x06 = none := by decide

/-! ## Small states -/

/-- The state an operation leaves, if it leaves one. -/
def left (i : Instr) (s : State) : Option State :=
  match exec i s with
  | .next t => some t
  | _ => none

/-- Drive 0 in the loop at a step: a READY image of 80 tracks and 9 sectors at slot 100, selected. -/
def inLoop (t : SeqStep) : State :=
  { State.reset with
    selector := .drive0
    drv0 := { track := 1#16, side := 0#1, sector := 0#8, lba := 18#32, bitLength := 7, step := t,
              img := { flags := { changed := false, ready := true, readonly := false }, numTrack := 80#16, numSec := 9#8,
                       startSector := 100#32, fName := true, geometryLoaded := true } } }

/-- The same drive with bytes in the buffer. -/
def withBuf (off : Nat) (bs : List Byte) (s : State) : State := s.putBuf off bs

/-- The first half of V-FRM-3's payload: 0..255. -/
def rising : List Byte := (List.range 256).map (BitVec.ofNat 8)

/-- The loopback oracle (spec/95 section 0). -/
def loopback : Answer := { st := 0, keep := true, bytes := [] }

/-- The drive of `inLoop` without a medium, with a virtual image or without one. -/
def noMedium (vdisk : Bool) (t : SeqStep) : State :=
  let s := inLoop t
  { s with drv0 := { s.drv0 with img := { s.drv0.img with flags := { changed := true, ready := false, readonly := false } } },
           inp := { s.inp with vdisk0 := vdisk } }

/-- The drive of `inLoop` in half-sector mode. -/
def halfMode (s : State) : State := { s with params := { s.params with half0 := true } }

/-- One drive, in the single-drive topology. -/
def single : State := { State.reset with params := { State.reset.params with topology := .singleDrive } }

/-- With oracle answers to come. -/
def given (as : List Answer) (s : State) : State := { s with answers := as }

/-- A store call that succeeds. -/
def done : Answer := { st := 0, keep := false, bytes := [] }

/-- Drive 0 at an odd sector index. -/
def oddSector (s : State) : State := { s with drv0 := { s.drv0 with sector := 1#8 } }

theorem withBuf_params (off : Nat) (bs : List Byte) (s : State) : (withBuf off bs s).params = s.params := rfl
theorem standard_poly : Params.standard.crcPoly = 0x1021#16 := rfl
theorem standard_init : Params.standard.crcInit = 0xCDB4#16 := rfl
theorem reset_poly : State.reset.params.crcPoly = 0x1021#16 := rfl
theorem reset_init : State.reset.params.crcInit = 0xCDB4#16 := rfl

/-- The written range, read back. -/
theorem withBuf_range (s : State) (off len : Nat) (bs : List Byte) (h : bs.length = len) : (withBuf off bs s).bufRange off len = bs := by
  subst h; exact State.bufRange_putBuf_same s off bs

/-- A framed full sector of zeros with its right CRC in the buffer (V-FRM-2). -/
def clean (s : State) : State := withBuf 8 (0xFB#8 :: List.replicate 512 0#8) (withBuf 521 [0xDA#8, 0x6E#8] s)

theorem clean_params (s : State) : (clean s).params = s.params := rfl

theorem clean_range (s : State) : (clean s).bufRange 8 513 = 0xFB#8 :: List.replicate 512 0#8 :=
  withBuf_range _ 8 513 _ (by decide +kernel)

/-! ## CRC generator -/

theorem test_crcRst : (left .crcRst State.reset).map (·.crc) = some 0xCDB4#16 := by decide

/-- V-CRC-3, first and third step. -/
theorem test_crcBit :
    (left (.crcBit 1#8) { State.reset with crc := 0xCDB4#16 }).map (·.crc) = some 0x9B68#16 ∧
    (left (.crcBit 1#8) { State.reset with crc := 0x36D0#16 }).map (·.crc) = some 0x7D81#16 := by decide

/-- V-CRC-4. -/
theorem test_crcByte :
    (left (.crcByte 0xFE#8) { State.reset with crc := 0xCDB4#16 }).map (·.crc) = some 0xB230#16 ∧
    (left (.crcByte 0x80#8) { State.reset with crc := 0xFFFF#16 }).map (·.crc) = some 0x7078#16 := by decide

/-- V-CRC-5, first row; and a range past the buffer (R123, U16). -/
theorem test_crcBlk :
    (left (.crcBlk 0#16 5#16) (withBuf 0 [0xFE#8, 0#8, 0#8, 1#8, 2#8] State.reset)).map (·.result) = some (.crc 0xCA6F#16) ∧
    left (.crcBlk 530#16 7#16) State.reset = none := by decide +kernel

/-- V-CRC-1 and V-CRC-2. -/
theorem test_crc_published :
    crcBytes 0x1021#16 0xFFFF#16 [0x31#8, 0x32#8, 0x33#8, 0x34#8, 0x35#8, 0x36#8, 0x37#8, 0x38#8, 0x39#8] = 0x29B1#16 ∧
    crcBytes 0x1021#16 0xFFFF#16 [0xA1#8, 0xA1#8, 0xA1#8] = 0xCDB4#16 := by decide +kernel

/-- V-CRC-6: the data fields of 512 zero bytes, of E5, of 256 bytes of A5, and the ramp of V-FRM-3. -/
theorem test_crc_zero : crcBytes 0x1021#16 0xCDB4#16 (0xFB#8 :: List.replicate 512 0#8) = 0xDA6E#16 := by decide +kernel
theorem test_crc_e5 : crcBytes 0x1021#16 0xCDB4#16 (0xFB#8 :: List.replicate 512 0xE5#8) = 0xC40B#16 := by decide +kernel
theorem test_crc_a5 : crcBytes 0x1021#16 0xCDB4#16 (0xFB#8 :: List.replicate 256 0xA5#8) = 0x03F0#16 := by decide +kernel
theorem test_crc_rising : crcBytes 0x1021#16 0xCDB4#16 (0xFB#8 :: rising) = 0x9F77#16 := by decide +kernel

/-- V-CRC-10. -/
theorem test_crcPut_crcCmp :
    (left (.crcPut 5#16) { State.reset with crc := 0xCA6F#16 }).map (·.bufRange 5 2) = some [0xCA#8, 0x6F#8] ∧
    (left (.crcCmp 5#16) (withBuf 5 [0xCA#8, 0x6F#8] { State.reset with crc := 0xCA6F#16 })).map (·.result) = some (.bool true) ∧
    (left (.crcCmp 5#16) (withBuf 5 [0xCA#8, 0x6E#8] { State.reset with crc := 0xCA6F#16 })).map (·.result)
      = some (.bool false) := by decide

/-- The buffer of `clean` passes the CRC test. -/
theorem clean_matches (as : List Answer) (s : State) (hp : s.params = Params.standard) : (given as (clean s)).fullMatches = true := by
  rw [State.fullMatches_iff, State.bufRange_congr (clean s) (given as (clean s)) rfl rfl, clean_range,
    show (given as (clean s)).params = Params.standard from hp]
  exact ⟨(State.bufByte_putBuf_outside _ _ _ _ (by decide +kernel)).trans
      ((State.bufByte_putBuf_inside s 521 [0xDA#8, 0x6E#8] 0 (by decide)).trans
        (by rw [standard_poly, standard_init, test_crc_zero]; decide)),
    (State.bufByte_putBuf_outside _ _ _ _ (by decide +kernel)).trans
      ((State.bufByte_putBuf_inside s 521 [0xDA#8, 0x6E#8] 1 (by decide)).trans
        (by rw [standard_poly, standard_init, test_crc_zero]; decide))⟩

/-! ## Framer and checkers -/

/-- V-FRM-1. -/
theorem test_frmHdr :
    (left (.frmHdr 256#16 0#8 0#8 2#8 1#8) State.reset).map (·.bufRange 256 8)
      = some [0xFE#8, 0#8, 0#8, 2#8, 1#8, 0xAF#8, 0x5F#8, 0x4E#8] := by decide +kernel

theorem ok_bufByte (s : State) (a : Nat) : s.returningOk.bufByte a = s.bufByte a := rfl
theorem ok_bufRange (s : State) (a l : Nat) : s.returningOk.bufRange a l = s.bufRange a l := rfl
theorem frmDat512_leaves (s : State) : exec .frmDat512 s = .next s.frameFull.returningOk := rfl
theorem frmDat256A_leaves (s : State) : exec .frmDat256A s = .next s.frameFirstHalf.returningOk := rfl
theorem frmDat256B_leaves (s : State) : exec .frmDat256B s = .next (s.foundRunning.frameSecondHalf s.runningDrive).returningOk := rfl

/-- V-FRM-2, on any buffer with 512 zero payload bytes. -/
theorem test_frmDat512 (s : State) (hp : s.params = Params.standard) (hz : s.bufRange 9 512 = List.replicate 512 0#8) :
    ∃ t, exec .frmDat512 s = .next t ∧
      t.bufByte 8 = 0xFB#8 ∧ t.bufByte 521 = 0xDA#8 ∧ t.bufByte 522 = 0x6E#8 ∧ t.bufByte 523 = 0x4E#8 := by
  obtain ⟨_, h1, h2, h3, h4, _⟩ := s.frameFull_spec
  rw [hz, hp, standard_poly, standard_init, test_crc_zero] at h2 h3
  refine ⟨_, frmDat512_leaves s, ?_⟩
  simp only [ok_bufByte]
  exact ⟨h1, h2.trans (by decide), h3.trans (by decide), h4⟩

/-- V-FRM-3, first half, on any buffer with the bytes 0..255 in it and `FD` two bytes after them. -/
theorem test_frmDat256A (s : State) (hp : s.params = Params.standard) (hr : s.bufRange 9 256 = rising) (hf : s.bufByte 267 = 0xFD#8) :
    ∃ t, exec .frmDat256A s = .next t ∧
      t.bufByte 8 = 0xFB#8 ∧ t.bufByte 265 = 0x9F#8 ∧ t.bufByte 266 = 0x77#8 ∧ t.bufByte 267 = 0x4E#8 ∧ t.bufByte 526 = 0xFD#8 := by
  obtain ⟨_, h1, h2, h3, h4, h5, _⟩ := s.frameFirstHalf_spec
  rw [hr, hp, standard_poly, standard_init, test_crc_rising] at h2 h3
  refine ⟨_, frmDat256A_leaves s, ?_⟩
  simp only [ok_bufByte]
  exact ⟨h1, h2.trans (by decide), h3.trans (by decide), h4, (h5 2 (by decide)).trans hf⟩

/-- V-FRM-3, second half: the ID field laid over the tail of the first half, and one of the nine saved bytes. No drive is Selected, and the
two drives' fields agree: whichever runs, the frame is this. -/
theorem test_frmDat256B : ∃ t, exec .frmDat256B (withBuf 256 [0xF7#8] State.reset) = .next t ∧
    t.bufRange 256 8 = [0xFE#8, 0#8, 0#8, 2#8, 1#8, 0xAF#8, 0x5F#8, 0x4E#8] ∧ t.bufByte 264 = 0xFB#8 ∧ t.bufByte 527 = 0xF7#8 := by
  refine ⟨_, frmDat256B_leaves _, ?_⟩
  generalize (withBuf 256 [0xF7#8] State.reset).runningDrive = d
  obtain ⟨_, h1, h2, _, _, _, h3, _⟩ := State.frameSecondHalf_spec (withBuf 256 [0xF7#8] State.reset).foundRunning d
  simp only [ok_bufByte, ok_bufRange]
  exact ⟨h1.trans (by cases d <;> decide +kernel), h2, (h3 0 (by decide)).trans (by decide +kernel)⟩

/-- V-FRM-4: the gap byte is not examined; a wrong length code is; R144: another mark is bad with no CRC, though the header would pass `BUF`'s end. -/
theorem test_hdrChk :
    (left (.hdrChk 0#16) (withBuf 0 [0xFE#8, 0#8, 0#8, 1#8, 2#8, 0xCA#8, 0x6F#8, 0#8] State.reset)).map (·.result)
      = some (.header 0#8 0#8 1#8 2#8) ∧
    (left (.hdrChk 0#16) (withBuf 0 [0xFE#8, 0#8, 0#8, 1#8, 3#8, 0xDA#8, 0x4E#8, 0x4E#8] State.reset)).map (·.result)
      = some (.status .hdrBad) ∧
    (left (.hdrChk 535#16) (withBuf 535 [0xFB#8] { State.reset with crc := 0x1234#16 })).map (fun t => (t.result, t.crc))
      = some (.status .hdrBad, 0x1234#16) := by decide +kernel

/-- V-FRM-5, zero payload: the right trailer passes, another does not. -/
theorem test_datChk512 :
    (withBuf 8 (0xFB#8 :: List.replicate 512 0#8) (withBuf 521 [0xDA#8, 0x6E#8] State.reset)).fullMatches = true ∧
    (withBuf 8 (0xFB#8 :: List.replicate 512 0#8) (withBuf 521 [0#8, 0#8] State.reset)).fullMatches = false := by
  constructor
  · rw [State.fullMatches_iff, withBuf_range _ 8 513 _ (by decide +kernel)]
    rw [withBuf_params, withBuf_params, reset_poly, reset_init, test_crc_zero]; decide +kernel
  · rw [Bool.eq_false_iff, ne_eq, State.fullMatches_iff, withBuf_range _ 8 513 _ (by decide +kernel)]
    rw [withBuf_params, withBuf_params, reset_poly, reset_init, test_crc_zero]; decide +kernel

/-- V-CRC-6 and P3: 256 bytes of A5 in the second half. -/
theorem test_datChk256 :
    (withBuf 264 (0xFB#8 :: List.replicate 256 0xA5#8) (withBuf 521 [0x03#8, 0xF0#8] State.reset)).halfMatches 1 = true := by
  rw [State.halfMatches_iff, show halfBase 1 = 264 from rfl, withBuf_range _ 264 257 _ (by decide +kernel)]
  rw [withBuf_params, withBuf_params, reset_poly, reset_init, test_crc_a5]; decide +kernel

/-- R154: the bytes go out with the Selected drive's `bitLength`. -/
theorem test_xcvTx :
    (left (.xcvTx 3#16 2#16) (withBuf 3 [0x11#8, 0x22#8] (inLoop .xfer))).map (·.calls)
      = some [.transmit [0x11#8, 0x22#8] 7] := by decide

/-- R155: host-write of two bytes; and V-FRM-9. -/
theorem test_xcvRb :
    (left (.xcvRb 3#16 2#16) (given [{ st := 0, keep := false, bytes := [0x11#8, 0x22#8] }] (inLoop .xfer))).map
      (fun t => (t.result, t.bufRange 3 2)) = some (.readback true, [0x11#8, 0x22#8]) ∧
    (left (.xcvRb 3#16 2#16) { inLoop .xfer with inp := { (inLoop .xfer).inp with writeGate := .asserted } }).map (·.busyWait)
      = some (some (.xcvRb 3#16 2#16)) := by decide

/-- V-FRM-8. -/
theorem test_frmSlot512_unsupported :
    (left (.frmSlot512 .drive0) { inLoop .xfer with params := { Params.standard with unsupported := [(.full512, 7)] } }).map
      (fun t => (t.calls, t.buf, t.reports.map (·.code))) = some ([], [], [.unsupportedFormat]) := by decide

/-- V-FRM-10. -/
theorem test_frmSlot256_odd :
    left (.frmSlot256 .drive0) (oddSector (halfMode (inLoop .xfer))) = some { oddSector (halfMode (inLoop .xfer)) with result := .status .ok } := by
  decide +kernel

/-! ## Position state machine -/

/-- V-POS-2 and V-POS-3. -/
theorem test_stpEdge :
    (left (.stpEdge 0b11#8) State.reset).map (fun t => (t.pendingTrackDelta, t.trackChangedFlag)) = some (-1#16, true) ∧
    (left (.stpEdge 0b01#8) State.reset).map (fun t => (t.pendingTrackDelta, t.trackChangedFlag)) = some (0#16, false) := by decide

/-- V-POS-8 and V-POS-9. -/
theorem test_stpEdge_overflow :
    left (.stpEdge 0b10#8) { State.reset with pendingTrackDelta := 32767#16, trackChangedFlag := true } = none ∧
    left (.stpEdge 0b11#8) { State.reset with pendingTrackDelta := -32768#16, trackChangedFlag := true } = none := by decide

/-- V-POS-7 and V-POS-6. -/
theorem test_posTake :
    (left .posTake { State.reset with pendingTrackDelta := 3#16, trackChangedFlag := true }).map
      (fun t => (t.result, t.pendingTrackDelta, t.trackChangedFlag)) = some (.take true 3#16, 0#16, false) ∧
    (left .posTake State.reset).map (·.result) = some (.take false 0#16) := by decide

/-- V-POS-5's end and V-POS-20: the clamp at the top, from inside and from beyond a smaller image. -/
theorem test_posApply :
    (left (.posApply .drive0 300#16) { inLoop .pos with drv0 := { (inLoop .pos).drv0 with track := 0#16 } }).map
      (fun t => (t.drv0.track, t.out.track0, t.out.diskChange)) = some (79#16, .released, .released) ∧
    (left (.posApply .drive0 (-1#16)) { inLoop .pos with drv0 := { (inLoop .pos).drv0 with
        track := 100#16, img := { (inLoop .pos).drv0.img with numTrack := 40#16 } } }).map (·.drv0.track) = some 39#16 := by decide

/-- V-POS-12 and V-POS-18. -/
theorem test_posApply_low :
    (left (.posApply .drive0 (-300#16)) (inLoop .pos)).map (fun t => (t.drv0.track, t.out.track0)) = some (0#16, .asserted) ∧
    (left (.posApply .drive0 1#16) (noMedium false .pos)).map (fun t => (t.drv0.track, t.out.diskChange))
      = some (2#16, .asserted) := by decide

/-! ## Select handler and sequencer -/

/-- V-SEL-1 and V-SEL-2. -/
theorem test_selChg :
    (left (.selChg 0b110#8) State.reset).map (·.selector) = some .drive1 ∧ (left (.selChg 0b011#8) State.reset).map (·.selector) = some .none ∧
    (left (.selChg 0b111#8) single).map (·.selector) = some .drive0 ∧ (left (.selChg 0b001#8) single).map (·.selector) = some .none := by
  decide

/-- V-SEQ-1. -/
theorem test_seqDisp :
    (left (.seqDisp .drive0) { State.reset with selector := .drive0 }).map (fun t => (t.drv0.step, t.drv0.run)) = some (.enter, .selected) ∧
    (left (.seqDisp .drive1) { State.reset with selector := .drive0 }).map (·.drv1.step) = some .idle := by decide

/-- V-SEQ-2, the row "1, 0, 0; 0", and V-RST-2. -/
theorem test_seqEnter :
    (left (.seqEnter .drive0) (noMedium false .enter)).map
      (fun t => (t.out.diskChange, t.drv0.img.flags.changed, t.out.writeProtect, t.drv0.step)) = some (.asserted, true, .released, .chk) ∧
    left (.seqEnter .drive0) State.reset = none := by decide

/-- V-SEQ-2, the row "1, 0, 0; 1": a virtual image acknowledges the change. -/
theorem test_seqEnter_virtual :
    (left (.seqEnter .drive0) (noMedium true .enter)).map (fun t => (t.out.diskChange, t.drv0.img.flags.changed))
      = some (.asserted, false) := by decide

/-- R44, R279: `SEQ.EXIT 1` while drive 0 is Selected. -/
theorem test_seqExit_other : left (.seqExit .drive1) (inLoop .side) = some (inLoop .side) := by decide

/-- V-SEQ-5. -/
theorem test_seqChk_seqExit :
    (left (.seqChk .drive0) (inLoop .chk)).map (·.drv0.step) = some .side ∧
    (left (.seqChk .drive0) { inLoop .chk with selector := .drive1 }).map (·.drv0.step) = some .exit ∧
    (left (.seqExit .drive0) { inLoop .exit with out := { track0 := .released, writeProtect := .asserted, diskChange := .asserted } }).map
      (fun t => (t.out, t.drv0.step)) = some ({ track0 := .released, writeProtect := .released, diskChange := .released }, .idle) := by decide

/-- V-SEQ-6. -/
theorem test_seqSide :
    (left (.seqSide .drive0) (inLoop .side)).map (·.drv0.side) = some 0#1 ∧
    (left (.seqSide .drive0) { inLoop .side with inp := { (inLoop .side).inp with side := .asserted } }).map (·.drv0.side) = some 1#1 := by
  decide

/-- R202's example: delta 2, flag true, track 5, numTrack 80. -/
theorem test_seqPos :
    (left (.seqPos .drive0) { inLoop .pos with
        pendingTrackDelta := 2#16, trackChangedFlag := true, drv0 := { (inLoop .pos).drv0 with track := 5#16 } }).map
      (fun t => (t.drv0.track, t.out.track0, t.pendingTrackDelta, t.trackChangedFlag, t.drv0.step))
      = some (7#16, .released, 0#16, false, .lba) := by decide

/-- V-SEQ-3. -/
theorem test_seqLba :
    (left (.seqLba .drive0) { inLoop .lba with drv0 := { (inLoop .lba).drv0 with track := 79#16, side := 1#1, sector := 8#8 } }).map
      (·.drv0.lba) = some 1439#32 ∧
    (left (.seqLba .drive0) { inLoop .lba with drv0 := {
        (inLoop .lba).drv0 with track := 2#16, side := 1#1, sector := 16#8, img := { (inLoop .lba).drv0.img with numSec := 18#8 } } }).map
      (·.drv0.lba) = some 106#32 := by decide

/-- V-SEQ-7: no medium goes to NEXT; with `XMIT_AFTER_READ_FAIL` to XFER. -/
theorem test_seqFetch :
    (left (.seqFetch .drive0) (noMedium false .fetch)).map (·.drv0.step) = some .next ∧
    (left (.seqFetch .drive0) { noMedium false .fetch with params := { Params.standard with xmitAfterReadFail := true } }).map
      (·.drv0.step) = some .xfer := by decide

/-- R205 with V-FRM-8 and V-FRM-9. -/
theorem test_seqXfer :
    (left (.seqXfer .drive0) { inLoop .xfer with params := { Params.standard with unsupported := [(.full512, 7)] } }).map
      (fun t => (t.drv0.step, t.reports.length)) = some (.next, 1) ∧
    (left (.seqXfer .drive0) { inLoop .xfer with inp := { (inLoop .xfer).inp with writeGate := .asserted } }).map
      (fun t => (t.drv0.step, t.busyWait)) = some (.xfer, some (.seqXfer .drive0)) := by decide

/-- V-SEQ-4. -/
theorem test_seqNext :
    (left (.seqNext .drive0) (inLoop .next)).map (·.drv0.sector) = some 1#8 ∧
    (left (.seqNext .drive0) { inLoop .next with drv0 := { (inLoop .next).drv0 with sector := 8#8 } }).map (·.drv0.sector) = some 0#8 := by
  decide

/-! ## Storage paths -/

/-- V-STO-1: slot 118. V-STO-3: the virtual store, no `startSector`. -/
theorem test_secRd :
    (left (.secRd .drive0) (given [done] (inLoop .fetch))).map (fun t => (t.calls, t.result)) = some ([.memRead .pstore 118], .status .ok) ∧
    (left (.secRd .drive0) (given [done] (noMedium true .fetch))).map (·.calls) = some [.memRead .vstore 18] := by
  decide +kernel

/-- V-STO-6; and V-STO-5. -/
theorem test_secRd_other :
    (left (.secRd .drive0) (given [{ st := 5, keep := true, bytes := [] }] (inLoop .fetch))).map (fun t => (t.result, t.reports))
      = some (.status .storageReadError,
          [{ code := .storageReadError, d := .drive0, track := 1#16, side := 0#1, sec := 0, lba := 18, st := 5 }]) ∧
    left (.secRd .drive0) (halfMode (noMedium true .fetch)) = none := by
  decide +kernel

/-- V-STO-7 on slot 118, and V-STO-9: the one store call, the status, the report. -/
theorem test_secWr :
    (left (.secWr .drive0) (given [done] (clean (inLoop .xfer)))).map (fun t => (t.calls, t.result))
      = some ([.memWrite .pstore 118], .status .ok) ∧
    (left (.secWr .drive0) (given [{ st := 9, keep := true, bytes := [] }] (clean (inLoop .xfer)))).map
      (fun t => (t.result, t.reports.map (·.st))) = some (.status .storageWriteError, [9]) := by
  have h : ∀ as, (given as (clean (inLoop .xfer))).fullMatches = true := fun as => clean_matches as _ rfl
  constructor <;> (unfold left exec execSecWr State.writeMatches State.writeSector State.writeFull; rw [h]; decide +kernel)

/-- V-STO-8. -/
theorem test_secWr_mismatch :
    (left (.secWr .drive0) (withBuf 521 [0#8, 0#8] (clean (inLoop .xfer)))).map (fun t => (t.calls, t.reports, t.pstore))
      = some ([], [{ code := .crcMismatch, d := .drive0, track := 1#16, side := 0#1, sec := 0, lba := 18, st := 0 }], []) := by
  have h : (withBuf 521 [0#8, 0#8] (clean (inLoop .xfer))).fullMatches = false := by
    rw [Bool.eq_false_iff, ne_eq, State.fullMatches_iff]
    rw [show (withBuf 521 [0#8, 0#8] (clean (inLoop .xfer))).bufRange 8 513 = (clean (inLoop .xfer)).bufRange 8 513 from
      State.bufRange_putBuf_outside _ _ _ _ _ (by decide)]
    rw [withBuf_params, (clean_range (inLoop .xfer)), clean_params]; decide +kernel
  unfold left exec execSecWr State.writeMatches State.writeSector State.writeFull; rw [h]; decide +kernel

/-! ## Host operations and reset -/

/-- V-HOST-1 and V-HOST-2. -/
theorem test_imgLoad :
    (left (.imgLoad .drive0 80#16 9#8 0#32 false true) State.reset).map (·.drv0.img)
      = some { flags := { changed := true, ready := true, readonly := false }, numTrack := 80#16, numSec := 9#8, startSector := 0#32,
               fName := true, geometryLoaded := true } ∧
    left (.imgLoad .drive0 80#16 9#8 0#32 false false) State.reset = some { State.reset with result := .status .loadError } := by decide

/-- P4's second load. -/
theorem test_drvLoad :
    (left (.drvLoad .drive1 80#16 9#8 1440#32 false true) State.reset).map (fun t => (t.drv1.img.startSector, t.drv0)) =
      some (1440#32, State.reset.drv0) := by decide

/-- V-HOST-3: the Drive Runtime's eject also sets the head to rest; the descriptor's does not. -/
theorem test_eject :
    (left (.drvEject .drive0) (inLoop .idle)).map (fun t => (t.drv0.img.flags, t.drv0.img.fName, t.drv0.track, t.drv0.img.numTrack))
      = some ({ changed := true, ready := false, readonly := false }, false, 0#16, 80#16) ∧
    (left (.imgEject .drive0) (inLoop .idle)).map (fun t => (t.drv0.img.flags.ready, t.drv0.track)) = some (false, 1#16) := by decide

/-- V-HOST-7 and V-HOST-8. -/
theorem test_predicates :
    (left (.imgRdy .drive0) (inLoop .idle)).map (·.result) = some (.bool true) ∧
    (left (.imgRo .drive0) (inLoop .idle)).map (·.result) = some (.bool false) ∧
    (left (.imgChg .drive0) State.reset).map (·.result) = some (.bool true) ∧ left (.imgRdy .drive0) (inLoop .chk) = none := by decide

/-- V-HOST-6. -/
theorem test_imgClrchg :
    (left (.imgClrchg .drive0) State.reset).map (fun t => (t.drv0.img.flags.changed, t.out)) = some (false, State.reset.out) := by decide

/-- V-RST-1. -/
theorem test_sysReset :
    (left .sysReset { inLoop .xfer with pendingTrackDelta := 5#16, trackChangedFlag := true }).map
      (fun t => (t.drv0.img.flags, t.out, t.selector, t.pendingTrackDelta, t.trackChangedFlag))
      = some ({ changed := true, ready := false, readonly := false },
              { track0 := .asserted, writeProtect := .released, diskChange := .released }, .none, 0#16, false) := by decide

/-! ## The step -/

/-- The state a step leaves, if it leaves one. -/
def stepped (s : State) : Option State :=
  match step s with
  | .next t => some t
  | _ => none

/-- R106: an environment line; with none left, the main loop's own next operation (R199). -/
theorem test_step :
    (stepped { State.reset with trace := [[0x70#8, 0x01#8], [0x60#8]] }).map (fun t => (t.inp.side, t.trace)) = some (.asserted, [[0x60#8]]) ∧
    (stepped (inLoop .chk)).map (·.drv0.step) = some .side := by decide

/-- V-FRM-9: in the busy-wait a handler runs, a main-loop line does not. -/
theorem test_step_busy :
    (stepped { inLoop .xfer with inp := { (inLoop .xfer).inp with writeGate := .asserted }, busyWait := some (.seqXfer .drive0),
                                 trace := [[0x20#8, 0x02#8]] }).map (fun t => (t.pendingTrackDelta, t.busyWait.isSome)) = some (1#16, true) ∧
    (stepped { inLoop .xfer with inp := { (inLoop .xfer).inp with writeGate := .asserted }, busyWait := some (.seqXfer .drive0),
                                 trace := [[0x32#8, 0x00#8]] }).map (fun t => (t.trace, t.drv0.step)) = some ([[0x32#8, 0x00#8]], .xfer) := by decide

/-- R107 with R314: `SEQ.REV` stops in the slot whose readback waits; the wait is not stepped over and the sector stays. -/
theorem test_revolution_waits :
    (match execRevolution .drive0 (given [done] { inLoop .chk with inp := { (inLoop .chk).inp with writeGate := .asserted } }) with
      | .next t => some (t.drv0.step, t.drv0.sector, t.busyWait, t.calls)
      | _ => none) = some (.xfer, 0#8, some (.seqXfer .drive0), [.memRead .pstore 118]) := by decide +kernel

/-- An opcode-table word placed after reset is what the next step runs. -/
theorem test_withFetchWord :
    (stepped (State.reset.withFetchWord 16 0x0220)).map (fun t => (t.pendingTrackDelta, t.trackChangedFlag)) = some (1#16, true) := by decide

/-! ## Witnesses: states and operands that meet the hypotheses of each statement, at the boundaries of its clauses -/

theorem witness_CrcByteIsEightShifts : State.reset.params.crcPoly = 0x1021#16 := by decide
theorem witness_CrcBlockCoversItsRange :
    (0#16).toNat + (536#16).toNat ≤ 536 ∧ (536#16).toNat + (0#16).toNat ≤ 536 ∧ 536 < (536#16).toNat + (1#16).toNat ∧
    536 < (65535#16).toNat + (65535#16).toNat := by decide
theorem witness_CrcPutAndCompare :
    (534#16).toNat + 2 ≤ 536 ∧ (0#16).toNat + 2 ≤ 536 ∧ 536 < (535#16).toNat + 2 ∧ 536 < (65535#16).toNat + 2 := by decide
theorem witness_CrcDetectsEverySingleBit :
    (0x1021#16).getLsbD 0 = true ∧ 4 < [0xFE#8, 0#8, 0#8, 1#8, 2#8].length ∧ 0 < [0#8].length ∧ 7 < 8 := by decide
theorem witness_HeaderIsTheIdField :
    (528#16).toNat + 8 ≤ 536 ∧ (529#16).toNat + 7 ≤ 536 ∧ ¬ (529#16).toNat + 8 ≤ 536 ∧ 536 < (530#16).toNat + 7 := by decide
theorem witness_HeaderRoundTrip : (528#16).toNat + 8 ≤ 536 ∧ (1#8 = 1#8 ∨ 1#8 = 2#8) ∧ (2#8 = 1#8 ∨ 2#8 = 2#8) := by decide

/-- A header that passes, one with another first byte; the last byte of `BUF` with another first byte and with `0xFE`, and the first `base` outside. -/
theorem witness_HeaderCheckVerdict :
    (529#16).toNat + 7 ≤ 536 ∧ (535#16).toNat < 536 ∧ 536 < (530#16).toNat + 7 ∧ 536 ≤ (536#16).toNat ∧
    (withBuf 535 [0xFB#8] State.reset).bufByte 535 ≠ 0xFE#8 ∧ (withBuf 530 [0xFE#8] State.reset).bufByte 530 = 0xFE#8 ∧
    (left (.hdrChk 529#16) (withBuf 529 [0xFE#8, 0#8, 0#8, 0#8, 2#8, 0xF9#8, 0x5E#8] State.reset)).map (·.result)
      = some (.header 0#8 0#8 0#8 2#8) ∧
    (left (.hdrChk 529#16) (withBuf 529 [0xFB#8, 0#8, 0#8, 0#8, 2#8, 0xF9#8, 0x5E#8] State.reset)).map (·.result)
      = some (.status .hdrBad) := by decide +kernel
theorem witness_DataChecksCompareTheTrailer : (1#8 : Byte) ≠ 0#8 ∧ (255#8 : Byte) ≠ 0#8 := by decide
/-- The running drive of SecondHalfDataField and of the next: drive 0 Selected, drive 1, none. -/
theorem witness_SecondHalfDataField :
    (inLoop .xfer).drv0.step ≠ .idle ∧ ({ State.reset with drv1 := (inLoop .xfer).drv0 } : State).drv0.step = .idle ∧
    ({ State.reset with drv1 := (inLoop .xfer).drv0 } : State).drv1.step ≠ .idle ∧ State.reset.drv0.step = .idle ∧
    State.reset.drv1.step = .idle ∧ single.drv0.step = .idle ∧ single.drv1.step = .idle := by decide
theorem witness_TransmitHandsTheRange :
    (0#16).toNat + (536#16).toNat ≤ 536 ∧ 1 < (2#16).toNat ∧ (535#16).toNat + 0 < 536 ∧ ¬ (535#16).toNat + 1 < 536 ∧
    (inLoop .xfer).drv0.step ≠ .idle ∧
    State.reset.drv0.step = .idle ∧ State.reset.drv1.step = .idle ∧
    ({ State.reset with drv1 := (inLoop .xfer).drv0 } : State).drv1.step ≠ .idle := by decide

/-- WRITE_GATE asserted. -/
def gated (s : State) : State := { s with inp := { s.inp with writeGate := .asserted } }

theorem witness_ReadbackDrawsTheNamedRange :
    (0 < (2#16).toNat ∧ (535#16).toNat + 0 < 536 ∧ ¬ (535#16).toNat + 1 < 536) ∧ (inLoop .xfer).inp.writeGate = .released ∧ (gated (inLoop .xfer)).inp.writeGate = .asserted ∧
    (given [loopback] (inLoop .xfer)).answer.keep = true ∧
    (given [{ st := 1, keep := false, bytes := [0x11#8] }] (inLoop .xfer)).answer.keep = false := by decide

theorem inLoop_target (x : SeqStep) (r : Refusal) : (inLoop x).resolve ((inLoop x).params.half .drive0) .drive0 ≠ .stop r := by
  rw [show (inLoop x).resolve ((inLoop x).params.half .drive0) .drive0 = .physical 118 from
    State.resolve_ready (inLoop x) false .drive0 rfl (show (118 : Nat) < 2 ^ 32 by decide)]
  exact nofun

theorem inLoop_half_target (r : Refusal) : (halfMode (inLoop .xfer)).resolve true .drive0 ≠ .stop r := by
  rw [show (halfMode (inLoop .xfer)).resolve true .drive0 = .physical 109 by decide]
  exact nofun

/-- The image at another base slot: the largest physical index of `lba` 18 is at 0xFFFFFFED (folded: 0xFFFFFFF6), the next is none. -/
def atSlot (start : Word32) (s : State) : State := { s with drv0 := { s.drv0 with img := { s.drv0.img with startSector := start } } }

/-- A readback that fails. -/
def failed : Answer := { st := 1, keep := true, bytes := [] }

/-- Each kind of target: a physical slot, a virtual one, none, one the model refuses; the refused one with data that passes its CRC test (the
loopback) and with none (the readback fails). The last line is half-sector mode. -/
theorem witness_FullSlotCompletes :
    let past := atSlot 0xFFFFFFEE#32 (inLoop .xfer)
    (inLoop .xfer).params.hasDrive .drive0 = true ∧ (inLoop .xfer).supported .drive0 = true ∧ (inLoop .xfer).inp.writeGate = .released ∧
    (∀ r, (inLoop .xfer).resolve ((inLoop .xfer).params.half .drive0) .drive0 ≠ .stop r) ∧
    (noMedium true .xfer).resolve false .drive0 = .virtual 18 ∧ (noMedium false .xfer).resolve false .drive0 = .noMedia ∧
    past.supported .drive0 = true ∧ past.resolve (past.params.half .drive0) .drive0 = .stop .addressOutsideModel ∧
    (given [loopback] past).slotFullClean .drive0 = true ∧ (given [failed] past).slotFullClean .drive0 = false ∧
    (halfMode (inLoop .xfer)).supported .drive0 = true ∧ (given [failed] (inLoop .xfer)).answer.st ≠ 0 :=
  ⟨by decide, by decide, by decide, inLoop_target .xfer, by decide, by decide, by decide, by decide,
    State.slotFullClean_keep _ _ rfl rfl rfl, rfl, by decide, by decide⟩

theorem witness_FullSlotLoopbackStoresThePayload :
    let s := given [loopback, done] (inLoop .xfer)
    s.params.hasDrive .drive0 = true ∧ s.params.half .drive0 = false ∧ s.supported .drive0 = true ∧ s.inp.writeGate = .released ∧
    (s.drv .drive0).img.flags.ready = true ∧ (s.drv .drive0).img.startSector.toNat + (s.drv .drive0).lba.toNat < 2 ^ 32 ∧
    s.answers = loopback :: done :: [] ∧ loopback.st = 0 ∧ loopback.keep = true ∧ done.st = 0 := by decide

theorem witness_SlotsThatTransmitNothing :
    let s := { inLoop .xfer with params := { Params.standard with unsupported := [(.full512, 7)] } }
    s.params.hasDrive .drive0 = true ∧ s.supported .drive0 = false ∧ (oddSector (inLoop .xfer)).supported .drive0 = true ∧
    ((oddSector (inLoop .xfer)).drv .drive0).sector.toNat % 2 = 1 := by decide

/-- A physical slot, no medium, and both refused targets (U3, U8), with data that passes its CRC test and with none; a failed first readback, and a
failed second one. -/
theorem witness_HalfPairCompletes :
    let s := halfMode (inLoop .xfer)
    let past := atSlot 0xFFFFFFF7#32 s
    let virtual := halfMode (noMedium true .xfer)
    s.params.hasDrive .drive0 = true ∧ s.supported .drive0 = true ∧ (s.drv .drive0).sector.toNat % 2 = 0 ∧ s.inp.writeGate = .released ∧
    (∀ r, s.resolve true .drive0 ≠ .stop r) ∧ (halfMode (noMedium false .xfer)).resolve true .drive0 = .noMedia ∧
    past.resolve true .drive0 = .stop .addressOutsideModel ∧ virtual.resolve true .drive0 = .stop .halfSectorOnVirtualStore ∧
    (given [loopback] past).slotPairClean .drive0 = true ∧ (given [failed, failed] past).slotPairClean .drive0 = false ∧
    (given [failed, loopback] s).answer.st ≠ 0 ∧ ((given [failed, loopback] s).answerAfter 1).st = 0 ∧
    (given [loopback, done, failed] s).answer.st = 0 ∧ ((given [loopback, done, failed] s).answerAfter 2).st ≠ 0 :=
  ⟨by decide, by decide, by decide, by decide, inLoop_half_target, by decide, by decide, by decide,
    State.slotPairClean_keep _ _ rfl rfl, rfl, by decide, by decide, by decide, by decide⟩

/-- A READY drive; no medium, and half writes that fail, with both readbacks leaving the buffer. -/
theorem witness_HalfPairSpliceIsIdempotent :
    let s := given [loopback, done, loopback, done] (halfMode (inLoop .xfer))
    let none := given [loopback, loopback] (halfMode (noMedium false .xfer))
    let fails := given [loopback, failed, loopback, failed] (halfMode (inLoop .xfer))
    s.params.hasDrive .drive0 = true ∧ s.supported .drive0 = true ∧ (s.drv .drive0).sector.toNat % 2 = 0 ∧ s.inp.writeGate = .released ∧
    (s.drv .drive0).img.flags.ready = true ∧ (s.drv .drive0).img.startSector.toNat + (s.drv .drive0).lba.toNat / 2 < 2 ^ 32 ∧
    s.answers = loopback :: done :: loopback :: done :: [] ∧ loopback.st = 0 ∧ loopback.keep = true ∧ done.st = 0 ∧
    (none.params.hasDrive .drive0 = true ∧ none.supported .drive0 = true ∧ (none.drv .drive0).sector.toNat % 2 = 0 ∧
      none.inp.writeGate = .released ∧ none.resolve true .drive0 = .noMedia ∧ none.answer.keep = true ∧ (none.answerAfter 1).keep = true) ∧
    fails.answers = loopback :: failed :: loopback :: failed :: [] ∧ failed.st ≠ 0 := by decide

theorem witness_StepEdgeCountsOne :
    (0b01#8).getLsbD 1 = false ∧ (0b10#8).getLsbD 1 = true ∧ (0b10#8).getLsbD 0 = false ∧ (0b11#8).getLsbD 0 = true ∧
    (32766#16).toInt < 32767 ∧ (32767#16).toInt = 32767 ∧ -32768 < (32769#16).toInt ∧ (32768#16).toInt = -32768 := by decide

/-- Three edges of S2: two in, one out. -/
theorem witness_NetDelta :
    let fs := [0b10#8, 0b10#8, 0b11#8]
    (∃ t, fs.foldl (fun (o : Outcome State) f => andThen o (exec (.stpEdge f))) (.next State.reset) = .next t) ∧
    State.reset.pendingTrackDelta.toInt + fs.countP (fun f => f.getLsbD 1 && !f.getLsbD 0) ≤ 32767 ∧
    -32768 ≤ State.reset.pendingTrackDelta.toInt - fs.countP (fun f => f.getLsbD 1 && f.getLsbD 0) := ⟨⟨_, rfl⟩, by decide, by decide⟩

theorem inLoop_wf (x : SeqStep) : (inLoop x).wf where
  buf := ⟨List.Pairwise.nil, by simp [inLoop, State.reset]⟩
  pstore := ⟨List.Pairwise.nil, by simp [inLoop, State.reset]⟩
  vstore := ⟨List.Pairwise.nil, by simp [inLoop, State.reset]⟩
  flagCoversDelta := fun _ => rfl
  waiting := fun i h => by simp [inLoop, State.reset] at h

theorem inLoop_session (x : SeqStep) : (inLoop x).session where
  oneSelected := .inr rfl
  present := fun d _ => by cases d <;> rfl
  geometry := fun d h => by
    cases d
    · exact ⟨rfl, show geometryLegal false (inLoop .idle).drv0.img = true by decide, by show (0#8 : Byte).toNat < (9#8 : Byte).toNat; decide⟩
    · exact absurd rfl h.1
  waitInOrder := fun i h => by simp [inLoop, State.reset] at h

/-- V-POS-22: the delta is 1, one edge before or after the take; and an edge that bounces. -/
theorem witness_NoStepIsLostAtTheTake :
    ∀ f ∈ [0b10#8, 0b11#8, 0b00#8], ∃ s t u v w : State, ∃ a b : Word16, s.pendingTrackDelta = 1#16 ∧
      exec .posTake s = .next t ∧ t.result = .take true a ∧ exec (.stpEdge f) t = .next u ∧
      exec (.stpEdge f) s = .next v ∧ exec .posTake v = .next w ∧ w.result = .take true b := by
  intro f hf
  refine ⟨{ inLoop .chk with pendingTrackDelta := 1#16, trackChangedFlag := true }, ?_⟩
  simp only [List.mem_cons, List.not_mem_nil, or_false] at hf
  rcases hf with rfl | rfl | rfl <;> exact ⟨_, _, _, _, _, _, rfl, rfl, rfl, rfl, rfl, rfl, rfl⟩

theorem witness_TakeReadsAndClears :
    ({ State.reset with trackChangedFlag := true } : State).trackChangedFlag = true ∧ State.reset.trackChangedFlag = false := by decide

theorem witness_ApplyClampsTheTrack :
    State.reset.params.hasDrive .drive1 = true ∧ 1 ≤ (1#16).toNat ∧ (32767#16).toNat ≤ 32767 ∧
    1 ≤ ((inLoop .pos).drv .drive0).img.numTrack.toNat ∧ ((inLoop .pos).drv .drive0).img.numTrack.toNat ≤ 32767 := by decide

theorem witness_SelectResolvesTheLines : State.reset.params.topology = .twoDrive ∧ single.params.topology = .singleDrive := by decide

theorem witness_DispatchSelectsTheNamedDrive :
    let s := { State.reset with selector := .drive1 }
    s.params.hasDrive .drive1 = true ∧ s.drv0.step = .idle ∧ s.drv1.step = .idle ∧ s.selected .drive1 = true ∧
    s.selected .drive0 = false ∧ (inLoop .chk).drv0.step ≠ .idle ∧
    (inLoop .chk).params.hasDrive .drive1 = true ∧ ((inLoop .chk).other .drive1).step ≠ .idle := by decide

/-- Legal geometry; an odd `numSec` in half-sector mode; geometry never loaded. -/
theorem witness_EnterActions :
    let img := ((inLoop .enter).drv .drive0).img
    (inLoop .enter).params.hasDrive .drive0 = true ∧ ((inLoop .enter).other .drive0).step = .idle ∧ img.geometryLoaded = true ∧ 1 ≤ img.numTrack.toNat ∧ 1 ≤ img.numSec.toNat ∧
    (halfMode (inLoop .enter)).params.half .drive0 = true ∧ img.numSec.toNat % 2 ≠ 0 ∧
    (State.reset.drv .drive0).img.geometryLoaded = false := by decide

theorem witness_CheckAndExit :
    (inLoop .chk).params.hasDrive .drive0 = true ∧ ((inLoop .chk).other .drive0).step = .idle ∧ (inLoop .chk).selector = DriveId.drive0.pick .drive0 .drive1 ∧
    State.reset.selector ≠ DriveId.drive0.pick .drive0 .drive1 := by decide

theorem witness_SideAndNext :
    (inLoop .next).params.hasDrive .drive0 = true ∧ ((inLoop .next).other .drive0).step = .idle ∧ ((inLoop .next).drv .drive0).sector.toNat < 255 ∧ (254#8 : Byte).toNat < 255 ∧
    ((inLoop .next).drv .drive0).sector.toNat < ((inLoop .next).drv .drive0).img.numSec.toNat := by decide

theorem witness_PositionStepTakesThenApplies :
    (inLoop .pos).params.hasDrive .drive0 = true ∧ ((inLoop .pos).other .drive0).step = .idle ∧ (inLoop .pos).trackChangedFlag = false ∧
    ({ inLoop .pos with trackChangedFlag := true } : State).trackChangedFlag = true := by decide

theorem witness_LbaIsTheChsAddress :
    (inLoop .lba).params.hasDrive .drive0 = true ∧ ((inLoop .lba).other .drive0).step = .idle ∧ 0 ≤ ((inLoop .lba).drv .drive0).track.toInt ∧ (0 : Int) ≤ (32767#16).toInt ∧
    ((inLoop .lba).drv .drive0).track.toInt < ((inLoop .lba).drv .drive0).img.numTrack.toNat ∧
    ((inLoop .lba).drv .drive0).sector.toNat < ((inLoop .lba).drv .drive0).img.numSec.toNat := by decide

theorem witness_FetchChoosesTheStep :
    let past := atSlot 0xFFFFFFEE#32 (inLoop .fetch)
    let virtual := halfMode (noMedium true .fetch)
    (inLoop .fetch).params.hasDrive .drive0 = true ∧ ((inLoop .fetch).other .drive0).step = .idle ∧
    (∀ r, (inLoop .fetch).resolve ((inLoop .fetch).params.half .drive0) .drive0 ≠ .stop r) ∧
    past.resolve (past.params.half .drive0) .drive0 = .stop .addressOutsideModel ∧
    virtual.resolve (virtual.params.half .drive0) .drive0 = .stop .halfSectorOnVirtualStore :=
  ⟨by decide, by decide, inLoop_target .fetch, by decide, by decide⟩

/-- A slot that transmits, with WRITE_GATE released and asserted; two that do not, with WRITE_GATE asserted (an odd index, an unsupported format);
a refused target in both modes with data that passes its CRC test. -/
theorem witness_TransferRunsTheSlot :
    let unsupported := gated { inLoop .xfer with params := { Params.standard with unsupported := [(.full512, 7)] } }
    let past := given [loopback] (atSlot 0xFFFFFFEE#32 (inLoop .xfer))
    let pastHalf := given [loopback] (atSlot 0xFFFFFFF7#32 (halfMode (inLoop .xfer)))
    (inLoop .xfer).params.hasDrive .drive0 = true ∧ ((inLoop .xfer).other .drive0).step = .idle ∧ (inLoop .xfer).inp.writeGate = .released ∧
    (∀ r, (inLoop .xfer).resolve ((inLoop .xfer).params.half .drive0) .drive0 ≠ .stop r) ∧
    (gated (halfMode (inLoop .xfer))).inp.writeGate = .asserted ∧ (gated (halfMode (inLoop .xfer))).supported .drive0 = true ∧
    ((gated (halfMode (inLoop .xfer))).drv .drive0).sector.toNat % 2 = 0 ∧
    (gated (oddSector (halfMode (inLoop .xfer)))).params.half .drive0 = true ∧
    ((gated (oddSector (halfMode (inLoop .xfer)))).drv .drive0).sector.toNat % 2 ≠ 0 ∧
    unsupported.inp.writeGate = .asserted ∧ unsupported.supported .drive0 = false ∧
    past.resolve (past.params.half .drive0) .drive0 = .stop .addressOutsideModel ∧ past.slotFullClean .drive0 = true ∧
    pastHalf.resolve (pastHalf.params.half .drive0) .drive0 = .stop .addressOutsideModel ∧ pastHalf.slotPairClean .drive0 = true :=
  ⟨by decide, by decide, by decide, inLoop_target .xfer, by decide, by decide, by decide, by decide, by decide, by decide, by decide,
    by decide, State.slotFullClean_keep _ _ rfl rfl rfl, by decide, State.slotPairClean_keep _ _ rfl rfl⟩

/-- A position that goes on, one that chooses, the last; and one whose operation waits. -/
theorem witness_WiredLoopOrder :
    (∀ x ∈ [SeqStep.enter, .chk, .side, .pos, .lba, .next, .exit], (inLoop x).session ∧ (inLoop x).trace = [] ∧ (inLoop x).busyWait = none ∧
      ((inLoop x).drv .drive0).step ≠ .idle ∧ (((inLoop x).drv .drive0).step.operation .drive0).isSome ∧
      ∃ t, step (inLoop x) = .next t ∧ t.busyWait = none) ∧
    (inLoop .xfer).session ∧ ((inLoop .xfer).drv .drive0).step.operation .drive0 = some (.seqXfer .drive0) := by
  refine ⟨fun x hx => ⟨inLoop_session x, rfl, rfl, ?_⟩, inLoop_session .xfer, rfl⟩
  simp only [List.mem_cons, List.not_mem_nil, or_false] at hx
  rcases hx with rfl | rfl | rfl | rfl | rfl | rfl | rfl <;> exact ⟨by decide, by decide, _, rfl, rfl⟩

theorem witness_DeselectEndsTheSession :
    let s := { inLoop .next with selector := .none }
    s.session ∧ s.trace = [] ∧ s.busyWait = none ∧ (s.drv .drive0).step = .next ∧ s.selected .drive0 = false :=
  ⟨State.session_congr (inLoop_session .next) rfl (fun _ => rfl) nofun, rfl, rfl, rfl, rfl⟩

theorem witness_SectorRead :
    let ok := atSlot 0xFFFFFFED#32 (inLoop .fetch)
    let past := atSlot 0xFFFFFFEE#32 (inLoop .fetch)
    ok.params.hasDrive .drive0 = true ∧ (ok.drv .drive0).img.flags.ready = true ∧
    (ok.drv .drive0).img.startSector.toNat + (ok.drv .drive0).lba.toNat < 2 ^ 32 ∧
    2 ^ 32 ≤ (past.drv .drive0).img.startSector.toNat + (past.drv .drive0).lba.toNat ∧
    (given [done] ok).answer.st = 0 ∧ (given [{ st := 5, keep := true, bytes := [] }] ok).answer.st ≠ 0 ∧
    ((noMedium true .fetch).drv .drive0).img.flags.ready = false ∧ (noMedium true .fetch).vdisk .drive0 = true ∧
    (noMedium true .fetch).params.half .drive0 = false ∧ (noMedium false .fetch).vdisk .drive0 = false ∧
    (halfMode (noMedium true .fetch)).params.half .drive0 = true := by decide

theorem witness_SectorWrite :
    let s := given [done] (clean (inLoop .xfer))
    s.params.hasDrive .drive0 = true ∧ s.params.half .drive0 = false ∧ (s.drv .drive0).img.flags.ready = true ∧
    (s.bufByte 521 = hi8 (crcBytes s.params.crcPoly s.params.crcInit (s.bufRange 8 513)) ∧
      s.bufByte 522 = lo8 (crcBytes s.params.crcPoly s.params.crcInit (s.bufRange 8 513))) ∧
    (s.drv .drive0).img.startSector.toNat + (s.drv .drive0).lba.toNat < 2 ^ 32 ∧ s.answer.st = 0 :=
  ⟨rfl, rfl, rfl, (State.fullMatches_iff _).1 (clean_matches [done] _ rfl), by decide +kernel, rfl⟩

/-- What SectorWriteElsewhere asks of every state it is about. -/
def cleanWrite (s : State) : Prop :=
  s.params.hasDrive .drive0 = true ∧ s.params.half .drive0 = false ∧
  s.bufByte 521 = hi8 (crcBytes s.params.crcPoly s.params.crcInit (s.bufRange 8 513)) ∧
  s.bufByte 522 = lo8 (crcBytes s.params.crcPoly s.params.crcInit (s.bufRange 8 513))

theorem cleanWrite_of (as : List Answer) (s : State) (hp : s.params = Params.standard) : cleanWrite (given as (clean s)) :=
  ⟨by show s.params.hasDrive .drive0 = true; rw [hp]; rfl, by show s.params.half .drive0 = false; rw [hp]; rfl,
    (State.fullMatches_iff _).1 (clean_matches as s hp)⟩

/-- The virtual store with a status 0 and another, no store, and a physical index past 32 bits, each with the matching CRC. -/
theorem witness_SectorWriteElsewhere :
    let virtual := given [done] (clean (noMedium true .xfer))
    let bad := given [failed] (clean (noMedium true .xfer))
    let none := given [] (clean (noMedium false .xfer))
    let past := given [] (clean (atSlot 0xFFFFFFEE#32 (inLoop .xfer)))
    (cleanWrite virtual ∧ (virtual.drv .drive0).img.flags.ready = false ∧ virtual.vdisk .drive0 = true ∧ virtual.answer.st = 0) ∧
    (cleanWrite bad ∧ (bad.drv .drive0).img.flags.ready = false ∧ bad.vdisk .drive0 = true ∧ bad.answer.st ≠ 0) ∧
    (cleanWrite none ∧ (none.drv .drive0).img.flags.ready = false ∧ none.vdisk .drive0 = false) ∧
    (cleanWrite past ∧ (past.drv .drive0).img.flags.ready = true ∧
      2 ^ 32 ≤ (past.drv .drive0).img.startSector.toNat + (past.drv .drive0).lba.toNat) :=
  ⟨⟨cleanWrite_of _ _ rfl, rfl, rfl, rfl⟩, ⟨cleanWrite_of _ _ rfl, rfl, rfl, by decide⟩, ⟨cleanWrite_of _ _ rfl, rfl, rfl⟩,
    cleanWrite_of _ _ rfl, rfl, show 2 ^ 32 ≤ (0xFFFFFFEE#32 : Word32).toNat + (18#32 : Word32).toNat by decide⟩

/-- A framed half `h` of 256 bytes A5 with its right CRC (P3). -/
def cleanHalf (h : Nat) (s : State) : State :=
  withBuf (8 + 256 * h) (0xFB#8 :: List.replicate 256 0xA5#8) (withBuf (265 + 256 * h) [0x03#8, 0xF0#8] s)

theorem cleanHalf_crc (h : Nat) (s : State) (hp : s.params.crcPoly = 0x1021#16) (hi : s.params.crcInit = 0xCDB4#16) :
    let u := cleanHalf h s
    u.bufByte (8 + 256 * h + 257) = hi8 (crcBytes u.params.crcPoly u.params.crcInit (u.bufRange (8 + 256 * h) 257)) ∧
    u.bufByte (8 + 256 * h + 258) = lo8 (crcBytes u.params.crcPoly u.params.crcInit (u.bufRange (8 + 256 * h) 257)) := by
  intro u
  have hl : (0xFB#8 :: List.replicate 256 0xA5#8).length = 257 := by decide +kernel
  have hr : u.bufRange (8 + 256 * h) 257 = 0xFB#8 :: List.replicate 256 0xA5#8 := withBuf_range _ _ _ _ hl
  rw [hr, show u.params.crcPoly = 0x1021#16 from hp, show u.params.crcInit = 0xCDB4#16 from hi, test_crc_a5]
  have h0 := State.bufByte_putBuf_inside s (265 + 256 * h) [0x03#8, 0xF0#8] 0 (by decide)
  have h1 := State.bufByte_putBuf_inside s (265 + 256 * h) [0x03#8, 0xF0#8] 1 (by decide)
  exact ⟨(State.bufByte_putBuf_outside _ _ _ _ (by rw [hl]; omega)).trans
      ((congrArg _ (by omega : 8 + 256 * h + 257 = 265 + 256 * h + 0)).trans (h0.trans (by decide))),
    (State.bufByte_putBuf_outside _ _ _ _ (by rw [hl]; omega)).trans
      ((congrArg _ (by omega : 8 + 256 * h + 258 = 265 + 256 * h + 1)).trans (h1.trans (by decide)))⟩

/-- What HalfSectorWrite asks of every state it is about, for half `h` of its slot. -/
def cleanHalfWrite (h : Nat) (s : State) : Prop :=
  s.params.hasDrive .drive0 = true ∧ s.params.half .drive0 = true ∧ (s.drv .drive0).lba.toNat % 2 = h ∧
  s.bufByte (8 + 256 * h + 257) = hi8 (crcBytes s.params.crcPoly s.params.crcInit (s.bufRange (8 + 256 * h) 257)) ∧
  s.bufByte (8 + 256 * h + 258) = lo8 (crcBytes s.params.crcPoly s.params.crcInit (s.bufRange (8 + 256 * h) 257))

/-- The drive of `inLoop` at the next block. -/
def nextBlock (s : State) : State := { s with drv0 := { s.drv0 with lba := 19#32 } }

/-- `lba` 18 is half 0 of its slot, `lba` 19 half 1: on the last physical index and the first that is none, with a virtual image and with no medium,
each with the matching CRC in half-sector mode. -/
theorem witness_HalfSectorWrite :
    let at0 := cleanHalf 0 (atSlot 0xFFFFFFF6#32 (halfMode (inLoop .xfer)))
    let at1 := cleanHalf 1 (nextBlock (halfMode (inLoop .xfer)))
    let past := cleanHalf 0 (atSlot 0xFFFFFFF7#32 (halfMode (inLoop .xfer)))
    let virtual := cleanHalf 0 (halfMode (noMedium true .xfer))
    let none := cleanHalf 1 (nextBlock (halfMode (noMedium false .xfer)))
    (cleanHalfWrite 0 at0 ∧ (at0.drv .drive0).img.flags.ready = true ∧
      (at0.drv .drive0).img.startSector.toNat + (at0.drv .drive0).lba.toNat / 2 < 2 ^ 32) ∧
    (cleanHalfWrite 1 at1 ∧ (at1.drv .drive0).img.flags.ready = true ∧
      (at1.drv .drive0).img.startSector.toNat + (at1.drv .drive0).lba.toNat / 2 < 2 ^ 32) ∧
    (cleanHalfWrite 0 past ∧ (past.drv .drive0).img.flags.ready = true ∧
      2 ^ 32 ≤ (past.drv .drive0).img.startSector.toNat + (past.drv .drive0).lba.toNat / 2) ∧
    (cleanHalfWrite 0 virtual ∧ (virtual.drv .drive0).img.flags.ready = false ∧ virtual.vdisk .drive0 = true) ∧
    (cleanHalfWrite 1 none ∧ (none.drv .drive0).img.flags.ready = false ∧ none.vdisk .drive0 = false) :=
  ⟨⟨⟨rfl, rfl, rfl, cleanHalf_crc 0 _ rfl rfl⟩, rfl, show (0xFFFFFFF6#32 : Word32).toNat + (18#32 : Word32).toNat / 2 < 2 ^ 32 by decide⟩,
    ⟨⟨rfl, rfl, rfl, cleanHalf_crc 1 _ rfl rfl⟩, rfl, show (100#32 : Word32).toNat + (19#32 : Word32).toNat / 2 < 2 ^ 32 by decide⟩,
    ⟨⟨rfl, rfl, rfl, cleanHalf_crc 0 _ rfl rfl⟩, rfl, show 2 ^ 32 ≤ (0xFFFFFFF7#32 : Word32).toNat + (18#32 : Word32).toNat / 2 by decide⟩,
    ⟨⟨rfl, rfl, rfl, cleanHalf_crc 0 _ rfl rfl⟩, rfl, rfl⟩, ⟨⟨rfl, rfl, rfl, cleanHalf_crc 1 _ rfl rfl⟩, rfl, rfl⟩⟩

/-- A full sector, and a half in half-sector mode, whose trailing bytes are 0 where the CRC is not. -/
theorem witness_MismatchDropsTheWrite :
    let s := withBuf 521 [0#8, 0#8] (clean (inLoop .xfer))
    let u := withBuf 265 [0#8, 0#8] (cleanHalf 0 (halfMode (inLoop .xfer)))
    (s.params.hasDrive .drive0 = true ∧ s.params.half .drive0 = false ∧
      ¬ (s.bufByte 521 = hi8 (crcBytes s.params.crcPoly s.params.crcInit (s.bufRange 8 513)) ∧
        s.bufByte 522 = lo8 (crcBytes s.params.crcPoly s.params.crcInit (s.bufRange 8 513)))) ∧
    (u.params.hasDrive .drive0 = true ∧ u.params.half .drive0 = true ∧ (u.drv .drive0).lba.toNat % 2 = 0 ∧
      ¬ (u.bufByte 265 = hi8 (crcBytes u.params.crcPoly u.params.crcInit (u.bufRange 8 257)) ∧
        u.bufByte 266 = lo8 (crcBytes u.params.crcPoly u.params.crcInit (u.bufRange 8 257)))) := by
  refine ⟨⟨rfl, rfl, ?_⟩, rfl, rfl, rfl, ?_⟩
  · rw [show (withBuf 521 [0#8, 0#8] (clean (inLoop .xfer))).bufRange 8 513 = (clean (inLoop .xfer)).bufRange 8 513 from
      State.bufRange_putBuf_outside _ _ _ _ _ (by decide)]
    rw [withBuf_params, (clean_range (inLoop .xfer)), clean_params]; decide +kernel
  · rw [show (withBuf 265 [0#8, 0#8] (cleanHalf 0 (halfMode (inLoop .xfer)))).bufRange 8 257 = 0xFB#8 :: List.replicate 256 0xA5#8 from
      (State.bufRange_putBuf_outside _ _ _ _ _ (by decide)).trans (withBuf_range _ 8 257 _ (by decide +kernel))]
    rw [show (withBuf 265 [0#8, 0#8] (cleanHalf 0 (halfMode (inLoop .xfer)))).params.crcPoly = 0x1021#16 from rfl,
      show (withBuf 265 [0#8, 0#8] (cleanHalf 0 (halfMode (inLoop .xfer)))).params.crcInit = 0xCDB4#16 from rfl, test_crc_a5]
    decide +kernel

/-- LoadSetsTheDescriptor, EjectClearsTheDescriptor, PredicatesReturnTheirFlag, ClearChangedIsIdempotent. -/
theorem witness_hostOperations :
    State.reset.params.hasDrive .drive1 = true ∧ State.reset.drv0.step = .idle ∧ State.reset.drv1.step = .idle ∧
    single.params.hasDrive .drive0 = true := by decide
theorem witness_ClearChangedIsIdempotent :
    let s := noMedium true .enter
    s.params.hasDrive .drive0 = true ∧ (s.other .drive0).step = .idle ∧ (s.drv .drive0).img.geometryLoaded = true ∧
    geometryLegal (s.params.half .drive0) (s.drv .drive0).img = true ∧ (s.drv .drive0).img.flags.changed = true ∧ s.vdisk .drive0 = true := by
  decide
theorem witness_HostOperationsNeedIdleDrives :
    (inLoop .chk).params.hasDrive .drive1 = true ∧ ((inLoop .chk).drv0.step ≠ .idle ∨ (inLoop .chk).drv1.step ≠ .idle) := by decide

/-- One writer of each kind: the selector, the delta, a handler. -/
theorem witness_WhoWritesTheSharedState :
    (∃ t, exec (.selChg 1#8) State.reset = .next t ∧ t.selector ≠ State.reset.selector) ∧
    (∃ t, exec (.stpEdge 2#8) State.reset = .next t ∧ t.pendingTrackDelta ≠ State.reset.pendingTrackDelta) ∧
    (Instr.stpEdge 2#8).context = some .handler := ⟨⟨_, rfl, by decide⟩, ⟨_, rfl, by decide⟩, rfl⟩

theorem witness_WhoWritesTheOutputs :
    (∃ t, exec (.posApply .drive0 1#16) (inLoop .pos) = .next t ∧ t.out.track0 ≠ (inLoop .pos).out.track0) ∧
    (∃ t, exec (.seqEnter .drive0) (noMedium false .enter) = .next t ∧ t.out.diskChange ≠ (noMedium false .enter).out.diskChange) := by
  exact ⟨⟨_, rfl, by decide⟩, ⟨_, rfl, by decide⟩⟩

/-- A fetch that finds no medium, and a transfer of an unsupported format. -/
theorem witness_TransferErrorsNeverStopTheLoop :
    ((noMedium false .fetch).drv .drive0).step ≠ .idle ∧ (∃ t, exec (.seqFetch .drive0) (noMedium false .fetch) = .next t) ∧
    (left (.seqXfer .drive0) { inLoop .xfer with params := { Params.standard with unsupported := [(.full512, 7)] } }).isSome := by
  exact ⟨by decide, ⟨_, rfl⟩, by decide⟩

theorem witness_EveryStepKeepsTheData : (inLoop .chk).wf ∧ ∃ t, step (inLoop .chk) = .next t := ⟨inLoop_wf .chk, _, rfl⟩

/-- A drive with nine sectors, Deselected at sector 5 of its last session. -/
def rested : State := { inLoop .idle with drv0 := { (inLoop .idle).drv0 with sector := 5#8 } }

theorem rested_inRange (tr : List (List Byte)) : ({ rested with trace := tr } : State).sectorsInRange := by
  rintro (_ | _) h1 h2
  · show (5#8).toNat < (9#8).toNat; decide
  · cases h1

/-- The bound on `sector` at the transition to ENTER, at a load of six sectors, which it admits, and of five, which it does not. -/
theorem witness_OrderedStepsKeepTheSession_range :
    (({ rested with trace := [[0x3A#8, 0x00#8]] } : State).sectorsInRange ∧
      (stepped { rested with trace := [[0x3A#8, 0x00#8]] }).map (·.drv0.step) = some .enter) ∧
    loadCoversSector (.drvLoad .drive0 80#16 6#8 0#32 false true) rested ∧
    ¬ loadCoversSector (.drvLoad .drive0 80#16 5#8 0#32 false true) rested := by
  refine ⟨⟨rested_inRange _, by decide⟩, fun d nt ns st ro h => ?_, fun h => ?_⟩
  · rcases h with h | h <;> cases h
    exact .inr (by decide)
  · exact absurd (h .drive0 80#16 5#8 0#32 false (.inr rfl)) (by decide)

/-- With no event given; with `SEQ.CHK 0` given where R199 puts it; and, out of order, with `SEQ.ENTER 1` given while drive 0 is Selected. -/
theorem witness_OrderedStepsKeepTheSession :
    (inLoop .chk).session ∧ (inLoop .chk).trace = [] ∧ (∃ t, step (inLoop .chk) = .next t) ∧
    (∃ s t : State, s.session ∧ s.nextOperation = some (.seqChk .drive0) ∧ inOrder (.seqChk .drive0) s ∧ step s = .next t) ∧
    ∃ t, step { inLoop .chk with trace := [[0x31#8, 0x01#8]] } = .next t := by
  refine ⟨inLoop_session .chk, rfl, ⟨_, rfl⟩, ⟨{ inLoop .chk with trace := [[0x32#8, 0x00#8]] }, _, ?_, rfl, ?_, rfl⟩, _, rfl⟩
  · exact State.session_congr (inLoop_session .chk) rfl (fun _ => rfl) nofun
  · intro d x h; cases h; rfl

theorem witness_DecodeUndoesEncode : (Instr.crcBlk 0#16 536#16).wellFormed = true ∧ (Instr.frameId 0#8 0#8 1#8 2#8 0xCA6F#16).wellFormed = true := by
  decide

/-- An operation line; each environment line, taken in a busy-wait too; VDISK of an idle drive, of a Selected one, of none; no line left. -/
theorem witness_StepRunsTheNextLine :
    ({ State.reset with trace := [[0x20#8, 0x02#8]] } : State).busyWait = none ∧ decodeLine [0x20#8, 0x02#8] = .ok (.op (.stpEdge 2#8)) ∧
    (gated (inLoop .xfer)).inp.writeGate = .asserted ∧ decodeLine [0x70#8, 0x01#8] = .ok (.envSide true) ∧
    decodeLine [0x71#8, 0x00#8] = .ok (.envWgate false) ∧ decodeLine [0x73#8, 0x01#8] = .ok (.envDir true) ∧
    decodeLine [0x72#8, 0x01#8, 0x01#8] = .ok (.envVdisk .drive1 true) ∧
    (State.reset.params.hasDrive .drive1 = true ∧ (State.reset.drv .drive1).step = .idle) ∧
    (decodeLine [0x72#8, 0x00#8, 0x01#8] = .ok (.envVdisk .drive0 true) ∧ ((inLoop .chk).drv .drive0).step ≠ .idle) ∧
    single.params.hasDrive .drive1 = false ∧
    (inLoop .chk).mainLoopNext = some (.seqChk .drive0) ∧ (inLoop .chk).trace = [] ∧ State.reset.mainLoopNext = none ∧
    ({ State.reset with selector := .drive1 } : State).selected .drive1 = true ∧ State.reset.selector = .none := by decide

theorem witness_ReservedSelectorsAreRefused :
    operationLength (0x06#8 : Byte).toNat = 0 ∧ (0x06#8 : Byte).toNat ∉ [0x70, 0x71, 0x72, 0x73, 0xFE, 0xFB] ∧
    operationLength (0xFF#8 : Byte).toNat = 0 ∧ State.reset.busyWait = none ∧ single.params.hasDrive .drive1 = false ∧
    single.params.hasDrive .drive0 = true ∧ State.reset.params.hasDrive .drive1 = true := by decide

theorem witness_StuckBusyWait :
    let s := { gated (inLoop .xfer) with busyWait := some (.seqXfer .drive0) }
    s.busyWait = some (.seqXfer .drive0) ∧ s.inp.writeGate = .asserted ∧ s.trace = [] ∧
    decodeLine [0x32#8, 0x00#8] = .ok (.op (.seqChk .drive0)) ∧ (Instr.seqChk .drive0).context = some .mainLoop ∧
    decodeLine [0x30#8, 0x00#8] = .ok (.op (.selChg 0#8)) ∧ (Instr.selChg 0#8).context = some .handler ∧
    decodeLine [0x60#8] = .ok (.op .sysReset) ∧ Instr.sysReset.context = some .environment ∧
    decodeLine [0x71#8, 0x00#8] = .ok (.envWgate false) ∧ decodeLine [0x70#8, 0x01#8] = .ok (.envSide true) ∧
    (inLoop .xfer).inp.writeGate = .released := by decide

end Sys2Proof.Tests
end

section
/-!
PROOFS. The invariants of R44 along a step, who writes the output latches, and the reset values (spec/10_state.md). A step is split once by what it
runs (`StepCase`), an operation once by the one drive it writes (`WritesDrive`); each invariant is a case analysis of these.
-/

namespace Sys2Proof.Machine

/-! ## One step, split by what it runs -/

/-- An event is an operation, or changes the inputs and nothing else (R73, R106). -/
theorem runItem_cases (item : TraceItem) (s t : State) (h : runItem item s = .next t) :
    (∃ i, item = .op i ∧ exec i s = .next t) ∨ ∃ inp, t = { s with inp := inp } := by
  cases item with
  | op i => exact .inl ⟨i, rfl, h⟩
  | envSide v => cases h; exact .inr ⟨_, rfl⟩
  | envWgate v => cases h; exact .inr ⟨_, rfl⟩
  | envDir v => cases h; exact .inr ⟨_, rfl⟩
  | envVdisk d v =>
    obtain ⟨_, h⟩ := (onDrive_next d s t _).1 h
    split at h
    · cases h; exact .inr ⟨_, rfl⟩
    · cases h

/-- What a step that answers a next state does (R106, R199, R314): it takes at most a line and changes at most the inputs, or it runs
`nextOperation` on the state without that line, the wait over or, for an operation that is not the main loop's, still pending. -/
inductive StepCase (s : State) : State → Prop where
  | event (rest : List (List Byte)) (inp : Inputs) (hr : rest <:+ s.trace) : StepCase s { s with trace := rest, inp := inp }
  | operation {t : State} (i : Instr) (rest : List (List Byte)) (wait : Option Instr) (hn : s.nextOperation = some i)
      (hr : rest <:+ s.trace) (hw : wait = none ∨ wait = s.busyWait ∧ i.context ≠ some .mainLoop)
      (hx : exec i { s with trace := rest, busyWait := wait } = .next t) : StepCase s t

theorem StepCase.stays (s : State) : StepCase s s := .event s.trace s.inp List.suffix_rfl

/-- Outside a busy-wait: the next line, else the main loop's own operation, else nothing. -/
theorem runFree_case (s t : State) (hb : s.busyWait = none) (h : runFree s = .next t) : StepCase s t := by
  unfold runFree at h
  cases ht : s.trace with
  | nil =>
    simp only [ht] at h
    cases hn : s.mainLoopNext with
    | none => simp only [hn] at h; cases h; exact .stays s
    | some i =>
      simp only [hn] at h
      exact .operation i s.trace s.busyWait (by simp [State.nextOperation, hb, ht, hn]) List.suffix_rfl (.inl hb) h
  | cons line rest =>
    have hr : rest <:+ s.trace := ht ▸ List.suffix_cons line rest
    simp only [ht, runLine] at h
    cases hd : decodeLine line with
    | error why => simp only [hd] at h; cases h
    | ok item =>
      simp only [hd] at h
      rcases runItem_cases item _ t h with ⟨i, rfl, hx⟩ | ⟨inp, rfl⟩
      · exact .operation i rest s.busyWait (by simp [State.nextOperation, hb, ht, hd]) hr (.inl hb) hx
      · exact .event rest inp hr

/-- While WRITE_GATE holds the main loop (R314): the next line, if it needs no main loop. -/
theorem runStuck_case (s t : State) (w : Instr) (hb : s.busyWait = some w) (hg : s.inp.writeGate = .asserted)
    (h : runStuck s = .next t) : StepCase s t := by
  unfold runStuck at h
  cases ht : s.trace with
  | nil => simp only [ht] at h; cases h; exact .stays s
  | cons line rest =>
    have hr : rest <:+ s.trace := ht ▸ List.suffix_cons line rest
    simp only [ht] at h
    cases hd : decodeLine line with
    | error why => simp only [hd] at h; cases h
    | ok item =>
      simp only [hd] at h
      split at h
      · cases h; exact .stays s
      · rename_i hm
        rcases runItem_cases item _ t h with ⟨i, rfl, hx⟩ | ⟨inp, rfl⟩
        · exact .operation i rest s.busyWait (by simp [State.nextOperation, hb, hg, ht, hd, hm]) hr
            (.inr ⟨rfl, by simpa [needsMainLoop] using hm⟩) hx
        · exact .event rest inp hr

/-- Everything a step that answers a next state can do. -/
theorem step_case (s t : State) (h : step s = .next t) : StepCase s t := by
  unfold step runStep at h
  cases hb : s.busyWait with
  | none => simp only [hb] at h; exact runFree_case s t hb h
  | some w =>
    simp only [hb] at h
    split at h
    · rename_i hg; exact runStuck_case s t w hb hg h
    · rename_i hg
      exact .operation w s.trace none (by simp [State.nextOperation, hb, hg]) List.suffix_rfl (.inl rfl) h

/-- The operation of a sequencer position stands at that position (R199). -/
theorem SeqStep.position_operation (x : SeqStep) (d : DriveId) (i : Instr) (h : x.operation d = some i) : Instr.position i = some (d, x) := by
  cases x <;> cases h <;> rfl

/-- The operation of the step that a drive stands at is in order. -/
theorem State.inOrder_operation (s : State) (d : DriveId) (i : Instr) (h : (s.drv d).step.operation d = some i) : inOrder i s := by
  intro e x hp
  rw [SeqStep.position_operation _ d i h] at hp
  cases hp; rfl

/-- What the main loop runs with no event given stands where R199 puts it. -/
theorem State.mainLoopNext_inOrder (s : State) (i : Instr) (h : s.mainLoopNext = some i) : inOrder i s := by
  unfold State.mainLoopNext at h
  split at h
  · rename_i j hj; cases h; exact s.inOrder_operation .drive0 i hj
  · split at h
    · rename_i j hj; cases h; exact s.inOrder_operation .drive1 i hj
    · split at h
      · cases h; exact nofun
      · split at h
        · cases h; exact nofun
        · cases h

/-- With no event given, the next operation stands where R199 puts it: it is the main loop's own, or the one that waits. -/
theorem State.session.nextOperation_inOrder {s : State} (hs : s.session) (ht : s.trace = []) (i : Instr)
    (h : s.nextOperation = some i) : inOrder i s := by
  unfold State.nextOperation at h
  cases hb : s.busyWait with
  | none =>
    simp only [hb, ht] at h
    exact s.mainLoopNext_inOrder i h
  | some w =>
    simp only [hb, ht] at h
    split at h
    · cases h
    · cases h; exact hs.waitInOrder _ hb

/-! ## Frames of the composite updates -/

/-- The consume of `SEQ.POS` (R202) moves the head, and writes nothing else of a drive; of the latches it leaves WRITE_PROTECT. -/
theorem State.consumeDelta_frame (s : State) (d : DriveId) : ∃ v : Word16,
    s.consumeDelta d = { s.setDrv d { s.drv d with track := v } with
      pendingTrackDelta := (s.consumeDelta d).pendingTrackDelta, trackChangedFlag := (s.consumeDelta d).trackChangedFlag,
      out := { (s.consumeDelta d).out with writeProtect := s.out.writeProtect }, draws := (s.consumeDelta d).draws } := by
  cases hf : s.trackChangedFlag with
  | true =>
    rw [State.consumeDelta, if_pos hf, State.deltaCleared_eq]
    exact ⟨_, rfl⟩
  | false =>
    rw [State.consumeDelta, if_neg (by rw [hf]; decide)]
    exact ⟨(s.drv d).track, (s.setDrv_drv d).symm⟩

/-! ## The fields an operation leaves -/

theorem waitsOnGate_mainLoop (i : Instr) (h : waitsOnGate i = true) : i.context = some .mainLoop := by
  cases i with
  | xcvRb base len => rfl
  | frmSlot512 d => rfl
  | frmSlot256 d => rfl
  | seqXfer d => rfl
  | _ => cases h

/-- No operation changes the parameters (R33) or takes a line of the trace. -/
theorem Change.params_trace {i : Instr} {s t : State} (c : Change i s t) : t.params = s.params ∧ t.trace = s.trace := by
  cases c with
  | data u r hm => exact ⟨hm.params, hm.trace⟩
  | take r => rw [State.deltaCleared_eq]; exact ⟨rfl, rfl⟩
  | position d =>
    obtain ⟨v, hv⟩ := s.consumeDelta_frame d
    rw [hv]; exact ⟨rfl, rfl⟩
  | fetch d u _ _ hm => exact ⟨hm.params, hm.trace⟩
  | transfer d u _ _ hm => exact ⟨hm.params, hm.trace⟩
  | _ => exact ⟨rfl, rfl⟩

/-- An operation leaves the wait, begins its own and nothing else, or is reset, which ends it. -/
theorem Change.busyWait {i : Instr} {s t : State} (c : Change i s t) :
    t.busyWait = s.busyWait ∨ t = s.waiting i ∨ t.busyWait = none := by
  cases c with
  | data u r hm => exact .inl hm.busyWait
  | waits => exact .inr (.inl rfl)
  | take r => rw [State.deltaCleared_eq]; exact .inl rfl
  | position d =>
    obtain ⟨v, hv⟩ := s.consumeDelta_frame d
    rw [hv]; exact .inl rfl
  | fetch d u _ _ hm => exact .inl hm.busyWait
  | transfer d u _ _ hm => exact .inl hm.busyWait
  | reset => exact .inr (.inr rfl)
  | _ => exact .inl rfl

/-- Beside the main loop only reset writes a drive (R80). -/
theorem Change.drv_of_not_mainLoop {i : Instr} {s t : State} (c : Change i s t) (hc : i.context ≠ some .mainLoop) (hr : i ≠ .sysReset)
    (d : DriveId) : t.drv d = s.drv d := by
  cases c with
  | bounce f => rfl
  | edge f v => rfl
  | select l sel => rfl
  | reset => exact absurd rfl hr
  | data u r hm hi => exact absurd hi hc
  | waits hw => exact absurd (waitsOnGate_mainLoop i hw) hc
  | notEnabled hi => exact absurd hi hc
  | host e x hi => exact absurd hi hc
  | _ => exact absurd rfl hc

/-! ## What an operation makes of one drive

All that R44 reads of a drive is its step, `sector` and geometry. Every operation but reset writes one drive at most. -/

/-- How an operation writes drive `d`, as far as R44 reads it. -/
inductive DriveWrite (i : Instr) (s : State) (d : DriveId) (y : Drive) : Prop where
  /-- Nothing that R44 reads. -/
  | keeps (hs : y.step = (s.drv d).step) (hk : y.sector = (s.drv d).sector) (hi : y.img = (s.drv d).img)
  | dispatched (hd : s.params.hasDrive d = true) (ho : (s.other d).step = .idle) (hy : y = { s.drv d with step := .enter })
  | entered (hd : s.params.hasDrive d = true) (ho : (s.other d).step = .idle) (hl : (s.drv d).img.geometryLoaded = true)
      (hg : geometryLegal (s.params.half d) (s.drv d).img = true) (hy : y = (s.drv d).entered (s.vdisk d))
  /-- A step of the loop: in the wired order (R199) it begins inside the loop. -/
  | moved (hd : s.params.hasDrive d = true) (ho : (s.other d).step = .idle) (hp : inOrder i s → (s.drv d).inLoop)
      (hi : y.img = (s.drv d).img) (hk : y.sector = (s.drv d).sector ∨ y.sector = s.newSector d)
  | host (ho : (s.other d).step = .idle) (hx : y.step = .idle) (hk : HostWrite i d (s.drv d) y)

/-- `t` has drive `d` as written by the operation, and the other drive of `s`. -/
def WritesDrive (i : Instr) (s t : State) : Prop := ∃ d y, DriveWrite i s d y ∧ ∀ e, t.drv e = (s.setDrv d y).drv e

theorem State.other_step_idle (s : State) (h0 : s.drv0.step = .idle) (h1 : s.drv1.step = .idle) (d : DriveId) :
    (s.other d).step = .idle := by cases d <;> assumption

theorem WritesDrive.same {i : Instr} {s t : State} (h : ∀ e, t.drv e = s.drv e) : WritesDrive i s t :=
  ⟨.drive0, s.drv .drive0, .keeps rfl rfl rfl, fun e => by rw [s.setDrv_drv]; exact h e⟩

/-- An operation that R199 puts inside the loop finds its drive there. -/
theorem inLoop_of_inOrder {i : Instr} {s : State} {d : DriveId} {x : SeqStep} (hp : Instr.position i = some (d, x))
    (hx : x ≠ .idle ∧ x ≠ .enter) (h : inOrder i s) : (s.drv d).inLoop := by
  rw [Drive.inLoop, h d x hp]; exact hx

/-- A step of the loop, which keeps the descriptor, and keeps `sector` or advances it. -/
theorem WritesDrive.loopStep {i : Instr} {s t : State} {d : DriveId} (x : SeqStep) (y : Drive) (hp : Instr.position i = some (d, x))
    (hx : x ≠ .idle ∧ x ≠ .enter) (hd : s.params.hasDrive d = true) (ho : (s.other d).step = .idle) (hi : y.img = (s.drv d).img)
    (hk : y.sector = (s.drv d).sector ∨ y.sector = s.newSector d) (ht : ∀ e, t.drv e = (s.setDrv d y).drv e) : WritesDrive i s t :=
  ⟨d, y, .moved hd ho (inLoop_of_inOrder hp hx) hi hk, ht⟩

/-- Every operation but reset writes one drive at most. -/
theorem Change.writesDrive {i : Instr} {s t : State} (c : Change i s t) (hr : i ≠ .sysReset) : WritesDrive i s t := by
  cases c with
  | data u r hm => exact .same hm.drv
  | take r => rw [State.deltaCleared_eq]; exact .same fun _ => rfl
  | apply d v => exact ⟨d, { s.drv d with track := s.newTrack d v }, .keeps rfl rfl rfl, fun _ => rfl⟩
  | dispatch d hd h0 h1 => exact ⟨d, _, .dispatched hd (s.other_step_idle h0 h1 d) rfl, fun _ => rfl⟩
  | enter d hd ho hl hg => exact ⟨d, _, .entered hd ho hl hg rfl, fun _ => rfl⟩
  | check d hd ho x => exact .loopStep .chk { s.drv d with step := x } rfl (by decide) hd ho rfl (.inl rfl) fun _ => rfl
  | side d hd ho b =>
    exact .loopStep .side { s.drv d with side := b, step := .pos } rfl (by decide) hd ho rfl (.inl rfl) fun _ => rfl
  | position d hd ho =>
    obtain ⟨v, hv⟩ := s.consumeDelta_frame d
    refine .loopStep .pos { s.drv d with track := v, step := .lba } rfl (by decide) hd ho rfl (.inl rfl) fun e => ?_
    rw [hv]; cases d <;> cases e <;> rfl
  | address d hd ho =>
    exact .loopStep .lba { s.drv d with lba := s.newLba d, step := .fetch } rfl (by decide) hd ho rfl (.inl rfl) fun _ => rfl
  | fetch d u hd ho hm x =>
    refine .loopStep .fetch { s.drv d with step := x } rfl (by decide) hd ho rfl (.inl rfl) ?_
    rw [hm.frame]; exact fun _ => rfl
  | transfer d u hd ho hm =>
    refine .loopStep .xfer { s.drv d with step := .next } rfl (by decide) hd ho rfl (.inl rfl) ?_
    rw [hm.frame]; exact fun _ => rfl
  | advance d hd ho =>
    exact .loopStep .next { s.drv d with sector := s.newSector d, step := .chk } rfl (by decide) hd ho rfl (.inr rfl) fun _ => rfl
  | leave d hd ho => exact .loopStep .exit { s.drv d with step := .idle } rfl (by decide) hd ho rfl (.inl rfl) fun _ => rfl
  | host d x _ _ h0 h1 hx hk => exact ⟨d, x, .host (s.other_step_idle h0 h1 d) hx hk, fun _ => rfl⟩
  | reset => exact absurd rfl hr
  | _ => exact .same fun _ => rfl

/-- A property of each drive holds after a write when it held before and the written drive has it. -/
theorem State.forall_drv_of_setDrv {P : DriveId → Drive → Prop} {s t : State} {d : DriveId} {y : Drive}
    (ht : ∀ e, t.drv e = (s.setDrv d y).drv e) (hs : ∀ e, P e (s.drv e)) (hy : P d y) (e : DriveId) : P e (t.drv e) := by
  rw [ht]
  by_cases he : e = d
  · rw [he, State.drv_setDrv]; exact hy
  · rw [State.drv_setDrv_other _ _ _ _ he]; exact hs e

/-! ## One drive Selected at most (R44, R279) -/

/-- That one drive is Selected at most, as any drive `d` sees it. -/
theorem State.oneSelected_iff (s : State) (d : DriveId) :
    (s.drv0.step = .idle ∨ s.drv1.step = .idle) ↔ ((s.drv d).step = .idle ∨ (s.other d).step = .idle) := by
  cases d
  · exact Iff.rfl
  · exact Or.comm

/-- A write that moves a sequencer finds the other drive idle. -/
theorem DriveWrite.step_or_other {i : Instr} {s : State} {d : DriveId} {y : Drive} (h : DriveWrite i s d y) :
    y.step = (s.drv d).step ∨ (s.other d).step = .idle := by
  cases h with
  | keeps hs => exact .inl hs
  | dispatched _ ho => exact .inr ho
  | entered _ ho => exact .inr ho
  | moved _ ho => exact .inr ho
  | host ho => exact .inr ho

theorem WritesDrive.oneSelected {i : Instr} {s t : State} (h : WritesDrive i s t) (hs : s.drv0.step = .idle ∨ s.drv1.step = .idle) :
    t.drv0.step = .idle ∨ t.drv1.step = .idle := by
  obtain ⟨d, y, hw, ht⟩ := h
  have hy : t.drv d = y := by rw [ht, State.drv_setDrv]
  have hother : t.other d = s.other d := by cases d; exacts [ht .drive1, ht .drive0]
  rw [State.oneSelected_iff t d, hy, hother]
  rcases hw.step_or_other with hk | ho
  · rw [hk]; exact (State.oneSelected_iff s d).1 hs
  · exact .inr ho

/-- No operation makes a second drive Selected. -/
theorem exec_keeps_oneSelected (i : Instr) (s t : State) (hs : s.drv0.step = .idle ∨ s.drv1.step = .idle) (h : exec i s = .next t) :
    t.drv0.step = .idle ∨ t.drv1.step = .idle := by
  by_cases hr : i = .sysReset
  · subst hr; cases h; exact .inl rfl
  · exact ((exec_change i s t h).writesDrive hr).oneSelected hs

/-! ## The bound on `sector` (R44) -/

/-- `SEQ.NEXT` keeps the bound (R206). -/
theorem State.newSector_lt (s : State) (d : DriveId) (h : (s.drv d).sector.toNat < (s.drv d).img.numSec.toNat) :
    (s.newSector d).toNat < (s.drv d).img.numSec.toNat := by
  have hn := (s.drv d).img.numSec.isLt
  unfold State.newSector
  split
  · exact Nat.lt_of_le_of_lt (Nat.zero_le _) h
  · rw [if_pos (by omega), BitVec.toNat_ofNat, Nat.mod_eq_of_lt (by omega)]
    omega

/-- `sector` kept or advanced stays below `numSec`. -/
theorem State.keptOrNewSector_lt {s : State} {d : DriveId} {k : Byte} (hk : k = (s.drv d).sector ∨ k = s.newSector d)
    (h : (s.drv d).sector.toNat < (s.drv d).img.numSec.toNat) : k.toNat < (s.drv d).img.numSec.toNat := by
  rcases hk with rfl | rfl
  · exact h
  · exact s.newSector_lt d h

/-- Legal geometry has a sector 0 (R211). -/
theorem zero_lt_numSec_of_legal {half : Bool} {img : Image} (h : geometryLegal half img = true) : (0#8 : Byte).toNat < img.numSec.toNat :=
  ((geometryLegal_iff half img).1 h).2.1

/-- Legality reads the two numbers of the geometry. -/
theorem geometryLegal_congr {half : Bool} {x y : Image} (ht : y.numTrack = x.numTrack) (hn : y.numSec = x.numSec) :
    geometryLegal half y = geometryLegal half x := by
  rw [geometryLegal, geometryLegal, ht, hn]

/-- A host operation keeps the bound, but for a load of fewer sectors (R246). -/
theorem HostWrite.sectorInRange {i : Instr} {s : State} {d : DriveId} {y : Drive} {half : Bool} (h : HostWrite i d (s.drv d) y)
    (hc : loadCoversSector i s) (hs : (s.drv d).sectorInRange half) : y.sectorInRange half := by
  intro hl hg
  cases h with
  | load nt ns st ro hi hy =>
    subst hy
    rcases hc d nt ns st ro hi with h0 | hlt
    · have := zero_lt_numSec_of_legal hg
      rw [show Image.numSec _ = ns from rfl, h0] at this
      exact absurd this (Nat.lt_irrefl _)
    · exact hlt
  | keeps hll ht hn hk =>
    rw [geometryLegal_congr ht hn] at hg
    rw [hn]
    rcases hk with hk | hk <;> rw [hk]
    · exact hs (hll ▸ hl) hg
    · exact zero_lt_numSec_of_legal hg

/-- The written drive keeps the bound at every step of its sequencer. -/
theorem DriveWrite.sectorInRange {i : Instr} {s : State} {d : DriveId} {y : Drive} {half : Bool} (h : DriveWrite i s d y)
    (hc : loadCoversSector i s) (hs : (s.drv d).sectorInRange half) : y.sectorInRange half := by
  cases h with
  | keeps _ hk hi => rw [Drive.sectorInRange, hk, hi]; exact hs
  | dispatched _ _ hy => rw [hy]; exact hs
  | entered _ _ _ _ hy => rw [hy]; exact fun _ hg => zero_lt_numSec_of_legal hg
  | moved _ _ _ hi hk =>
    rw [Drive.sectorInRange, hi]
    exact fun hl hg => State.keptOrNewSector_lt hk (hs hl hg)
  | host _ _ hk => exact hk.sectorInRange hc hs

/-- With no geometry loaded there is no bound to break. -/
theorem State.sectorsInRange_of_unloaded {s : State} (h0 : s.drv0.img.geometryLoaded = false) (h1 : s.drv1.img.geometryLoaded = false) :
    s.sectorsInRange := by
  intro d hl
  cases d
  · exact absurd (h0.symm.trans hl) (by decide)
  · exact absurd (h1.symm.trans hl) (by decide)

/-- Every operation keeps the bound of every drive, but for a load of fewer sectors. -/
theorem exec_keeps_sectorsInRange (i : Instr) (s t : State) (hs : s.sectorsInRange) (hc : loadCoversSector i s) (h : exec i s = .next t) :
    t.sectorsInRange := by
  by_cases hr : i = .sysReset
  · subst hr; cases h; exact State.sectorsInRange_of_unloaded rfl rfl
  · have c := exec_change i s t h
    obtain ⟨d, y, hw, ht⟩ := c.writesDrive hr
    unfold State.sectorsInRange
    rw [c.params_trace.1]
    exact State.forall_drv_of_setDrv (P := fun e x => x.sectorInRange (s.params.half e)) ht hs (hw.sectorInRange hc (hs d))

/-! ## The session invariant (R44) -/

/-- What the session invariant asks of a drive inside the loop. -/
def Drive.loopReady (half : Bool) (x : Drive) : Prop :=
  x.img.geometryLoaded = true ∧ geometryLegal half x.img = true ∧ x.sector.toNat < x.img.numSec.toNat

/-- A drive that an operation Selects exists. -/
theorem DriveWrite.present {i : Instr} {s : State} {d : DriveId} {y : Drive} (h : DriveWrite i s d y)
    (hs : (s.drv d).step ≠ .idle → s.params.hasDrive d = true) (hy : y.step ≠ .idle) : s.params.hasDrive d = true := by
  cases h with
  | keeps hk => exact hs (hk ▸ hy)
  | dispatched hd => exact hd
  | entered hd => exact hd
  | moved hd => exact hd
  | host _ hx => exact absurd hx hy

/-- In the wired order a drive enters the loop by its entry actions alone, and stays ready inside it. -/
theorem DriveWrite.loopReady {i : Instr} {s : State} {d : DriveId} {y : Drive} {half : Bool} (h : DriveWrite i s d y) (ho : inOrder i s)
    (hh : half = s.params.half d) (hs : (s.drv d).inLoop → (s.drv d).loopReady half) (hy : y.inLoop) : y.loopReady half := by
  cases h with
  | keeps hk hq hi =>
    rw [Drive.inLoop, hk] at hy
    rw [Drive.loopReady, hq, hi]; exact hs hy
  | dispatched _ _ he => rw [he] at hy; exact absurd rfl hy.2
  | entered _ _ hl hg he => rw [he, hh]; exact ⟨hl, hg, zero_lt_numSec_of_legal hg⟩
  | moved _ _ hp hi hk =>
    obtain ⟨hl, hg, hlt⟩ := hs (hp ho)
    rw [Drive.loopReady, hi]
    exact ⟨hl, hg, State.keptOrNewSector_lt hk hlt⟩
  | host _ hx => exact absurd hx hy.1

/-- The operation that waits stands where R199 puts it: it is the one just begun, or beside the main loop it still waits. -/
theorem Change.waitInOrder {i : Instr} {s t : State} (c : Change i s t) (hr : i ≠ .sysReset)
    (hs : ∀ j, s.busyWait = some j → inOrder j s) (ho : inOrder i s) (hb : s.busyWait = none ∨ i.context ≠ some .mainLoop)
    (j : Instr) (hj : t.busyWait = some j) : inOrder j t := by
  rcases c.busyWait with hk | rfl | hn
  · rw [hk] at hj
    rcases hb with hb | hb
    · rw [hb] at hj; cases hj
    · intro d x hp
      rw [c.drv_of_not_mainLoop hb hr]; exact hs j hj d x hp
  · cases hj; exact ho
  · rw [hn] at hj; cases hj

/-- With every drive Deselected and nothing waiting there is no session to break. -/
theorem State.session_of_idle {s : State} (h0 : s.drv0.step = .idle) (h1 : s.drv1.step = .idle) (hb : s.busyWait = none) : s.session where
  oneSelected := .inl h0
  present := fun d h => absurd (s.drv_step_idle h0 h1 d) h
  geometry := fun d h => absurd (s.drv_step_idle h0 h1 d) h.1
  waitInOrder := fun i hi => by rw [hb] at hi; cases hi

/-- Every operation that stands where R199 puts it keeps the session invariant. -/
theorem exec_keeps_session (i : Instr) (s t : State) (hs : s.session) (ho : inOrder i s)
    (hb : s.busyWait = none ∨ i.context ≠ some .mainLoop) (h : exec i s = .next t) : t.session := by
  by_cases hr : i = .sysReset
  · subst hr; cases h; exact State.session_of_idle rfl rfl rfl
  have c := exec_change i s t h
  have hparams := c.params_trace.1
  obtain ⟨d, y, hw, ht⟩ := c.writesDrive hr
  exact {
    oneSelected := WritesDrive.oneSelected ⟨d, y, hw, ht⟩ hs.oneSelected
    present := by
      rw [hparams]
      exact State.forall_drv_of_setDrv (P := fun e x => x.step ≠ .idle → s.params.hasDrive e = true) ht hs.present
        (hw.present (hs.present d))
    geometry := by
      rw [hparams]
      exact State.forall_drv_of_setDrv (P := fun e x => x.inLoop → x.loopReady (s.params.half e)) ht hs.geometry
        (hw.loopReady ho rfl (hs.geometry d))
    waitInOrder := c.waitInOrder hr hs.waitInOrder ho hb }

/-! ## The invariants along a step -/

theorem step_keeps_oneSelected (s t : State) (hs : s.drv0.step = .idle ∨ s.drv1.step = .idle) (h : step s = .next t) :
    t.drv0.step = .idle ∨ t.drv1.step = .idle := by
  cases step_case s t h with
  | event => exact hs
  | operation i rest wait _ _ _ hx => exact exec_keeps_oneSelected i { s with trace := rest, busyWait := wait } t hs hx

theorem step_keeps_sectorsInRange (s t : State) (hs : s.sectorsInRange) (hc : ∀ i, s.nextOperation = some i → loadCoversSector i s)
    (h : step s = .next t) : t.sectorsInRange := by
  cases step_case s t h with
  | event => exact hs
  | operation i rest wait hn _ _ hx =>
    exact exec_keeps_sectorsInRange i { s with trace := rest, busyWait := wait } t hs (hc i hn) hx

theorem step_keeps_session (s t : State) (hs : s.session) (ho : ∀ i, s.nextOperation = some i → inOrder i s) (h : step s = .next t) :
    t.session := by
  cases step_case s t h with
  | event => exact State.session_congr hs rfl (fun _ => rfl) hs.waitInOrder
  | operation i rest wait hn _ hw hx =>
    have hwait : ∀ j, wait = some j → inOrder j s := by
      rcases hw with rfl | ⟨rfl, _⟩
      · exact nofun
      · exact hs.waitInOrder
    have hs' : State.session { s with trace := rest, busyWait := wait } := State.session_congr hs rfl (fun _ => rfl) hwait
    exact exec_keeps_session i _ t hs' (ho i hn) (hw.imp_right And.right) hx

/-- No step adds an event. -/
theorem step_trace_nil (s t : State) (ht : s.trace = []) (h : step s = .next t) : t.trace = [] := by
  cases step_case s t h with
  | event rest inp hr => rw [ht] at hr; exact List.suffix_nil.1 hr
  | operation i rest wait _ hr _ hx =>
    rw [ht] at hr
    rw [(exec_change i _ t hx).params_trace.2]; exact List.suffix_nil.1 hr

/-! ## The output latches -/

/-- Which operations write an output latch, and what they leave of the others (R39, R275). -/
theorem Change.out {i : Instr} {s t : State} (c : Change i s t) (hr : i ≠ .sysReset) :
    t.out = s.out ∨
    ((∃ d v, i = .posApply d v) ∨ ∃ d, i = .seqPos d) ∧ t.out.writeProtect = s.out.writeProtect ∨
    ((∃ d, i = .seqEnter d) ∨ ∃ d, i = .seqExit d) ∧ t.out.track0 = s.out.track0 := by
  cases c with
  | data u r hm => exact .inl hm.out
  | take r => rw [State.deltaCleared_eq]; exact .inl rfl
  | apply d v => exact .inr (.inl ⟨.inl ⟨d, v, rfl⟩, rfl⟩)
  | position d =>
    obtain ⟨v, hv⟩ := s.consumeDelta_frame d
    exact .inr (.inl ⟨.inr ⟨d, rfl⟩, by rw [hv]; rfl⟩)
  | enter d => exact .inr (.inr ⟨.inl ⟨d, rfl⟩, rfl⟩)
  | leave d => exact .inr (.inr ⟨.inr ⟨d, rfl⟩, rfl⟩)
  | fetch d u _ _ hm => exact .inl hm.out
  | transfer d u _ _ hm => exact .inl hm.out
  | reset => exact absurd rfl hr
  | _ => exact .inl rfl

/-! ## Reset -/

theorem Memory.fits_nil (size : Nat) : Memory.fits [] size := ⟨.nil, nofun⟩

theorem State.reset_wf : State.reset.wf where
  buf := Memory.fits_nil _
  pstore := Memory.fits_nil _
  vstore := Memory.fits_nil _
  flagCoversDelta := fun _ => rfl
  waiting := nofun

/-! ## The obligations -/

/-- Settles O54: each invariant is kept by every operation, so by every step; with no event given, what runs stands where R199 puts it. -/
theorem orderedStepsKeepTheSession : Obligations.OrderedStepsKeepTheSession :=
  ⟨step_keeps_oneSelected, step_keeps_sectorsInRange, step_keeps_session, fun s t hs ht h =>
    ⟨step_keeps_session s t hs (hs.nextOperation_inOrder ht) h, step_trace_nil s t ht h⟩⟩

/-- Settles O51, from the one list of the operations that write a latch. -/
theorem whoWritesTheOutputs : Obligations.WhoWritesTheOutputs := by
  intro i s t h hr
  rcases (exec_change i s t h).out hr with ho | ⟨hi, hp⟩ | ⟨hi, h0⟩
  · rw [ho]; exact ⟨absurd rfl, absurd rfl, absurd rfl⟩
  · exact ⟨fun _ => hi, absurd hp, fun _ => hi.elim .inl fun hi => .inr (.inl hi)⟩
  · exact ⟨absurd h0, fun _ => hi, fun _ => .inr (.inr hi)⟩

/-- Settles O48: each value of R46's table is the one the reset state is defined with. -/
theorem resetValues : Obligations.ResetValues :=
  ⟨fun d => by cases d <;> exact ⟨rfl, rfl, rfl, rfl, rfl, rfl, rfl, rfl, rfl⟩, rfl, rfl, rfl, rfl⟩

/-- Settles O55: the memories list nothing, no drive is Selected, nothing waits, and no geometry counts as loaded. -/
theorem invariantsHoldAfterReset : Obligations.InvariantsHoldAfterReset :=
  ⟨State.reset_wf, State.session_of_idle rfl rfl rfl, State.sectorsInRange_of_unloaded rfl rfl⟩

end Sys2Proof.Machine
end

section
/-!
PROOFS. The memories, the delta and the flag along a step (spec/20_memory.md), and who writes the shared variables. Each of these is
one case analysis of what an operation can do (`Change`), and a step is split by what it runs (`StepCase`).
-/

namespace Sys2Proof.Machine

/-! ## The delta and the flag -/

/-- The clear of the consume leaves no delta where the flag covers it (R44). -/
theorem State.deltaCleared_pendingTrackDelta {s : State} (hs : s.trackChangedFlag = false → s.pendingTrackDelta = 0#16) :
    s.deltaCleared.pendingTrackDelta = 0#16 := by
  rw [State.deltaCleared_eq]
  cases hf : s.trackChangedFlag with
  | true => rfl
  | false => exact hs hf

/-- `SEQ.POS` consumes the delta as `POS.TAKE` does (R202): with the flag clear both leave it. -/
theorem State.consumeDelta_pendingTrackDelta (s : State) (d : DriveId) :
    (s.consumeDelta d).pendingTrackDelta = s.deltaCleared.pendingTrackDelta := by
  cases hf : s.trackChangedFlag with
  | true => rw [State.consumeDelta, if_pos hf]; rfl
  | false =>
    have hn : ¬ s.trackChangedFlag = true := by rw [hf]; decide
    rw [State.consumeDelta, if_neg hn, State.deltaCleared, if_neg hn]

/-- Which operations write the delta or the flag (R80), and what they leave there. -/
theorem Change.delta {i : Instr} {s t : State} (c : Change i s t) :
    (t.pendingTrackDelta = s.pendingTrackDelta ∧ t.trackChangedFlag = s.trackChangedFlag) ∨
    ((∃ f, i = .stpEdge f) ∧ t.trackChangedFlag = true) ∨
    ((i = .posTake ∨ ∃ d, i = .seqPos d) ∧ t.pendingTrackDelta = s.deltaCleared.pendingTrackDelta) ∨
    (i = .sysReset ∧ t.pendingTrackDelta = 0#16) := by
  cases c with
  | data u r hm => exact .inl ⟨hm.pendingTrackDelta, hm.trackChangedFlag⟩
  | edge f v => exact .inr (.inl ⟨⟨f, rfl⟩, rfl⟩)
  | take r => exact .inr (.inr (.inl ⟨.inl rfl, rfl⟩))
  | position d => exact .inr (.inr (.inl ⟨.inr ⟨d, rfl⟩, s.consumeDelta_pendingTrackDelta d⟩))
  | fetch d u _ _ hm => exact .inl ⟨hm.pendingTrackDelta, hm.trackChangedFlag⟩
  | transfer d u _ _ hm => exact .inl ⟨hm.pendingTrackDelta, hm.trackChangedFlag⟩
  | reset => exact .inr (.inr (.inr ⟨rfl, rfl⟩))
  | _ => exact .inl ⟨rfl, rfl⟩

/-- Every operation keeps the flag true while a delta is pending (R44). -/
theorem Change.flagCoversDelta {i : Instr} {s t : State} (c : Change i s t)
    (hs : s.trackChangedFlag = false → s.pendingTrackDelta = 0#16) (ht : t.trackChangedFlag = false) : t.pendingTrackDelta = 0#16 := by
  rcases c.delta with ⟨hd, hf⟩ | ⟨_, hf⟩ | ⟨_, hd⟩ | ⟨_, hd⟩
  · rw [hd]; exact hs (hf ▸ ht)
  · rw [ht] at hf; cases hf
  · rw [hd]; exact State.deltaCleared_pendingTrackDelta hs
  · exact hd

/-! ## The data invariant (R61 to R63, R44, R314) -/

/-- The three memories are canonical and inside their address spaces. -/
def State.memoriesFit (s : State) : Prop :=
  s.buf.fits bufLen ∧ s.pstore.fits (slotSize * 2 ^ 32) ∧ s.vstore.fits (slotSize * 2 ^ 32)

theorem Moves.memoriesFit {s t : State} (h : Moves s t) (hs : s.memoriesFit) : t.memoriesFit := by
  obtain ⟨hb, hp, hv⟩ := hs
  exact ⟨h.bufFits hb, h.pstoreFits hp, h.vstoreFits hv⟩

/-- A memory is written inside its space by the data side of a transfer, emptied by reset, and left alone by every other operation. -/
theorem Change.memoriesFit {i : Instr} {s t : State} (c : Change i s t) (hs : s.memoriesFit) : t.memoriesFit := by
  cases c with
  | data u r hm => exact hm.memoriesFit hs
  | take r => rw [State.deltaCleared_eq]; exact hs
  | position d =>
    obtain ⟨v, hv⟩ := s.consumeDelta_frame d
    rw [hv]; exact hs
  | fetch d u _ _ hm => exact hm.memoriesFit hs
  | transfer d u _ _ hm => exact hm.memoriesFit hs
  | reset => exact ⟨Memory.fits_nil _, hs.2⟩
  | _ => exact hs

/-- Only a readback begins a wait: what waits after an operation waited before it or is that readback. -/
theorem Change.waiting {i : Instr} {s t : State} (c : Change i s t) (hs : ∀ j, s.busyWait = some j → waitsOnGate j = true)
    (j : Instr) (hj : t.busyWait = some j) : waitsOnGate j = true := by
  cases c with
  | data u r hm => exact hs j (hm.busyWait ▸ hj)
  | waits hw => cases hj; exact hw
  | take r => rw [State.deltaCleared_eq] at hj; exact hs j hj
  | position d =>
    obtain ⟨v, hv⟩ := s.consumeDelta_frame d
    rw [hv] at hj; exact hs j hj
  | fetch d u _ _ hm => exact hs j (hm.busyWait ▸ hj)
  | transfer d u _ _ hm => exact hs j (hm.busyWait ▸ hj)
  | reset => cases hj
  | _ => exact hs j hj

/-- Every operation keeps the data invariant. -/
theorem exec_keeps_wf (i : Instr) (s t : State) (hs : s.wf) (h : exec i s = .next t) : t.wf := by
  have c := exec_change i s t h
  obtain ⟨hb, hp, hv⟩ := c.memoriesFit ⟨hs.buf, hs.pstore, hs.vstore⟩
  exact { buf := hb, pstore := hp, vstore := hv, flagCoversDelta := c.flagCoversDelta hs.flagCoversDelta, waiting := c.waiting hs.waiting }

/-- Settles O53: a line taken or an input changed leaves the data alone, and every operation keeps it. -/
theorem everyStepKeepsTheData : Obligations.EveryStepKeepsTheData := by
  intro s t hs h
  cases step_case s t h with
  | event => exact State.wf_congr hs rfl rfl rfl hs.flagCoversDelta hs.waiting
  | operation i rest wait _ _ hw hx =>
    have hwait : ∀ j, wait = some j → waitsOnGate j = true := by
      rcases hw with rfl | ⟨rfl, _⟩
      · exact nofun
      · exact hs.waiting
    have hs' : State.wf { s with trace := rest, busyWait := wait } := State.wf_congr hs rfl rfl rfl hs.flagCoversDelta hwait
    exact exec_keeps_wf i _ t hs' hx

/-! ## No step is lost (R82, R310) -/

/-- What an edge adds to the delta: one step in the direction of STEPDIR (R170), none when it bounces (R171). -/
def ownStep (f : Byte) : Int := if edgeValid f then (if edgeStepDir f then -1 else 1) else 0

theorem execStpEdge_delta (f : Byte) (s t : State) (h : execStpEdge f s = .next t) :
    t.pendingTrackDelta.toInt = s.pendingTrackDelta.toInt + ownStep f := by
  rcases execStpEdge_next f s t h with ⟨hv, rfl⟩ | ⟨hv, hd, _⟩
  · simp [ownStep, hv]
  · rw [hd, steppedDelta, ownStep, if_pos hv]
    split <;> omega

/-- What a take returns and what it leaves pending add up to the delta before it (R173). -/
theorem State.takenDelta_add_deltaCleared (s : State) :
    s.takenDelta.toInt + s.deltaCleared.pendingTrackDelta.toInt = s.pendingTrackDelta.toInt := by
  rw [State.deltaCleared_eq, State.takenDelta]
  cases s.trackChangedFlag <;> simp

theorem execPosTake_delta (s t : State) (b : Bool) (a : Word16) (h : execPosTake s = .next t) (hr : t.result = .take b a) :
    a.toInt + t.pendingTrackDelta.toInt = s.pendingTrackDelta.toInt := by
  cases h
  cases hr
  exact s.takenDelta_add_deltaCleared

/-- Settles O25: a take moves the delta to its caller and an edge adds its own step, so their order does not matter. -/
theorem noStepIsLostAtTheTake : Obligations.NoStepIsLostAtTheTake := by
  intro s t u v w f ft fw a b htake ha hedge hedge' htake' hb
  have edgeAfter := execStpEdge_delta f t u hedge
  have takeBefore := execPosTake_delta s t ft a htake ha
  have edgeBefore := execStpEdge_delta f s v hedge'
  have takeAfter := execPosTake_delta v w fw b htake' hb
  change a.toInt + u.pendingTrackDelta.toInt = s.pendingTrackDelta.toInt + ownStep f ∧
    b.toInt + w.pendingTrackDelta.toInt = s.pendingTrackDelta.toInt + ownStep f
  omega

/-! ## Who writes the shared variables (R80, R36, R275) -/

/-- The select handler and reset are the writers of the selector (R36). -/
theorem Change.selector {i : Instr} {s t : State} (c : Change i s t) :
    t.selector = s.selector ∨ (∃ l, i = .selChg l) ∨ i = .sysReset := by
  cases c with
  | data u r hm => exact .inl hm.selector
  | take r => rw [State.deltaCleared_eq]; exact .inl rfl
  | select l => exact .inr (.inl ⟨l, rfl⟩)
  | position d =>
    obtain ⟨v, hv⟩ := s.consumeDelta_frame d
    rw [hv]; exact .inl rfl
  | fetch d u _ _ hm => exact .inl hm.selector
  | transfer d u _ _ hm => exact .inl hm.selector
  | reset => exact .inr (.inr rfl)
  | _ => exact .inl rfl

/-- A handler writes the shared variables and nothing else (R275). -/
theorem Change.handler_frame {i : Instr} {s t : State} (c : Change i s t) (hh : i.context = some .handler) :
    t = { s with pendingTrackDelta := t.pendingTrackDelta, trackChangedFlag := t.trackChangedFlag, selector := t.selector } := by
  cases c with
  | bounce f => rfl
  | edge f v => rfl
  | select l sel => rfl
  | data u r hm hc => rw [hc] at hh; cases hh
  | waits hw => rw [waitsOnGate_mainLoop i hw] at hh; cases hh
  | notEnabled => rfl
  | host d x hc => rw [hc] at hh; cases hh
  | _ => cases hh

/-- Settles O50, from the lists of the operations that write the selector, and the delta or the flag. -/
theorem whoWritesTheSharedState : Obligations.WhoWritesTheSharedState := by
  intro i s t h
  have c := exec_change i s t h
  refine ⟨c.params_trace.1, c.selector.resolve_left, fun hne => ?_, c.handler_frame⟩
  rcases c.delta with ⟨hd, hf⟩ | ⟨hi, _⟩ | ⟨hi | hi, _⟩ | ⟨hi, _⟩
  · exact absurd hf (hne.resolve_left (absurd hd))
  · exact .inl hi
  · exact .inr (.inl hi)
  · exact .inr (.inr (.inl hi))
  · exact .inr (.inr (.inr hi))

end Sys2Proof.Machine
end

section
/-!
PROOFS. The encoding and the next line of a trace (spec/30_encoding.md): the decoder reads every encoding back, a step takes one line
(`step_of_line`, `step_of_rejected`), and a drive the topology lacks is refused before anything else (`exec_absent`).
-/

namespace Sys2Proof

/-- The law of each constructor, put together (R104, R91 to R93). -/
theorem decodeLine_encode (i : Instr) (h : i.wellFormed = true) : decodeLine (encode i) = .ok (.op i) := by
  cases i with
  | crcRst => exact Laws.RoundTrip.crcRst h
  | crcBit b => exact Laws.RoundTrip.crcBit b h
  | crcByte x => exact Laws.RoundTrip.crcByte x h
  | crcBlk off len => exact Laws.RoundTrip.crcBlk off len h
  | crcPut off => exact Laws.RoundTrip.crcPut off h
  | crcCmp off => exact Laws.RoundTrip.crcCmp off h
  | frmHdr base t hd sec n => exact Laws.RoundTrip.frmHdr base t hd sec n h
  | frmDat512 => exact Laws.RoundTrip.frmDat512 h
  | frmDat256A => exact Laws.RoundTrip.frmDat256A h
  | frmDat256B => exact Laws.RoundTrip.frmDat256B h
  | hdrChk base => exact Laws.RoundTrip.hdrChk base h
  | datChk512 => exact Laws.RoundTrip.datChk512 h
  | datChk256 hf => exact Laws.RoundTrip.datChk256 hf h
  | xcvTx base len => exact Laws.RoundTrip.xcvTx base len h
  | xcvRb base len => exact Laws.RoundTrip.xcvRb base len h
  | frmSlot512 d => exact Laws.RoundTrip.frmSlot512 d h
  | frmSlot256 d => exact Laws.RoundTrip.frmSlot256 d h
  | stpEdge f => exact Laws.RoundTrip.stpEdge f h
  | posTake => exact Laws.RoundTrip.posTake h
  | posApply d delta => exact Laws.RoundTrip.posApply d delta h
  | selChg l => exact Laws.RoundTrip.selChg l h
  | seqEnter d => exact Laws.RoundTrip.seqEnter d h
  | seqChk d => exact Laws.RoundTrip.seqChk d h
  | seqSide d => exact Laws.RoundTrip.seqSide d h
  | seqPos d => exact Laws.RoundTrip.seqPos d h
  | seqLba d => exact Laws.RoundTrip.seqLba d h
  | seqFetch d => exact Laws.RoundTrip.seqFetch d h
  | seqXfer d => exact Laws.RoundTrip.seqXfer d h
  | seqNext d => exact Laws.RoundTrip.seqNext d h
  | seqExit d => exact Laws.RoundTrip.seqExit d h
  | seqDisp d => exact Laws.RoundTrip.seqDisp d h
  | secRd d => exact Laws.RoundTrip.secRd d h
  | secWr d => exact Laws.RoundTrip.secWr d h
  | imgLoad d nt ns start ro ok => exact Laws.RoundTrip.imgLoad d nt ns start ro ok h
  | imgEject d => exact Laws.RoundTrip.imgEject d h
  | imgRdy d => exact Laws.RoundTrip.imgRdy d h
  | imgRo d => exact Laws.RoundTrip.imgRo d h
  | imgChg d => exact Laws.RoundTrip.imgChg d h
  | imgClrchg d => exact Laws.RoundTrip.imgClrchg d h
  | drvLoad d nt ns start ro ok => exact Laws.RoundTrip.drvLoad d nt ns start ro ok h
  | drvEject d => exact Laws.RoundTrip.drvEject d h
  | sysReset => exact Laws.RoundTrip.sysReset h
  | frameId t hd sec n crc => exact Laws.RoundTrip.frameId t hd sec n crc h
  | frameData512 payload crc => exact Laws.RoundTrip.frameData512 payload crc h
  | frameData256 payload crc => exact Laws.RoundTrip.frameData256 payload crc h

/-- Every arm of the selector table but the last is a selector of R104, an environment line's or a frame's mark (R105). -/
theorem decodeSelector_reserved (sel : Nat) (ops : List Byte)
    (h : ¬ (operationLength sel ≠ 0 ∨ sel ∈ [0x70, 0x71, 0x72, 0x73, 0xFE, 0xFB])) :
    decodeSelector sel ops = .error (.reservedSelector sel) := by
  unfold decodeSelector
  split
  case h_49 => rfl
  all_goals exact absurd (by decide) h

/-- The drive operand of an operation (R104's operand column). -/
def Instr.driveOperand : Instr → Option DriveId
  | .frmSlot512 d | .frmSlot256 d | .posApply d _ | .seqEnter d | .seqChk d | .seqSide d | .seqPos d | .seqLba d | .seqFetch d
  | .seqXfer d | .seqNext d | .seqExit d | .seqDisp d | .secRd d | .secWr d | .imgLoad d _ _ _ _ _ | .imgEject d | .imgRdy d
  | .imgRo d | .imgChg d | .imgClrchg d | .drvLoad d _ _ _ _ _ | .drvEject d => some d
  | _ => none

/-- Only the single-drive topology lacks a drive, and it lacks drive 1 (R9). -/
theorem Params.hasDrive_eq_false_iff (p : Params) (d : DriveId) :
    p.hasDrive d = false ↔ p.topology = .singleDrive ∧ d = .drive1 := by
  cases d with
  | drive0 => simp [Params.hasDrive]
  | drive1 => cases ht : p.topology <;> simp [Params.hasDrive, ht]

namespace Machine

/-! ## The topology (R9) -/

theorem onDrive_absent (d : DriveId) (s : State) (k : Outcome State) (h : s.params.hasDrive d = false) :
    onDrive d s k = .refused .noSuchDrive := by
  simp [onDrive, h]

/-- An operation with a drive operand tests the drive before anything else. -/
theorem exec_eq_onDrive (i : Instr) (d : DriveId) (s : State) (hi : i.driveOperand = some d) : ∃ k, exec i s = onDrive d s k := by
  cases i <;> cases hi <;> exact ⟨_, rfl⟩

theorem exec_absent (i : Instr) (d : DriveId) (s : State) (hi : i.driveOperand = some d) (h : s.params.hasDrive d = false) :
    exec i s = .refused .noSuchDrive := by
  obtain ⟨k, hk⟩ := exec_eq_onDrive i d s hi
  rw [hk, onDrive_absent d s k h]

/-! ## One step, by the head of the trace (R106) -/

theorem step_free (s : State) (hb : s.busyWait = none) : step s = runFree s := by
  simp [step, runStep, hb]

theorem step_stuck (s : State) (w : Instr) (hb : s.busyWait = some w) (hg : s.inp.writeGate = .asserted) : step s = runStuck s := by
  simp [step, runStep, hb, hg]

/-- With no busy-wait a step takes the head of the trace; in one it takes the lines that need no main loop (R314). -/
theorem step_of_line (s : State) (line : List Byte) (rest : List (List Byte)) (item : TraceItem)
    (hw : s.busyWait = none ∨ (s.inp.writeGate = .asserted ∧ needsMainLoop item = false))
    (ht : s.trace = line :: rest) (hd : decodeLine line = .ok item) : step s = runItem item { s with trace := rest } := by
  obtain hb | ⟨w, hb⟩ := s.busyWait.eq_none_or_eq_some
  · rw [step_free s hb]
    simp only [runFree, ht, runLine, hd]
  · obtain ⟨hg, hm⟩ := hw.resolve_left (by simp [hb])
    rw [step_stuck s w hb hg]
    simp [runStuck, ht, hd, hm]

/-- A line that does not decode is refused, and not skipped (R105). -/
theorem step_of_rejected (s : State) (line : List Byte) (rest : List (List Byte)) (why : Reject) (hb : s.busyWait = none)
    (ht : s.trace = line :: rest) (hd : decodeLine line = .error why) : step s = .refused (.undecodable why) := by
  rw [step_free s hb]; simp [runFree, ht, runLine, hd]

theorem step_of_mainLoopNext (s : State) (i : Instr) (hb : s.busyWait = none) (ht : s.trace = []) (hn : s.mainLoopNext = some i) :
    step s = exec i s := by
  rw [step_free s hb]; simp [runFree, ht, hn]

theorem step_of_idle (s : State) (hb : s.busyWait = none) (ht : s.trace = []) (hn : s.mainLoopNext = none) : step s = .next s := by
  rw [step_free s hb]; simp [runFree, ht, hn]

/-- With every drive Deselected the main loop looks at the selector alone (R194). -/
theorem State.mainLoopNext_deselected (s : State) (h0 : s.drv0.step = .idle) (h1 : s.drv1.step = .idle) :
    (∀ d, s.selected d = true → s.mainLoopNext = some (.seqDisp d)) ∧ (s.selector = .none → s.mainLoopNext = none) := by
  refine ⟨fun d hs => ?_, fun hs => ?_⟩
  · have hsel : s.selector = d.pick .drive0 .drive1 := by simpa [State.selected] using hs
    cases d <;> simp [State.mainLoopNext, SeqStep.operation, State.selected, DriveId.pick, h0, h1, hsel]
  · simp [State.mainLoopNext, SeqStep.operation, State.selected, DriveId.pick, h0, h1, hs]

/-! ## `ENV.VDISK` (R106, D24) -/

/-- The state with the input `VDISK[d]` set. -/
def State.withVdisk (s : State) (d : DriveId) (v : Bool) : State :=
  { s with inp := { s.inp with vdisk0 := d.pick v s.inp.vdisk0, vdisk1 := d.pick s.inp.vdisk1 v } }

theorem setVdisk_idle (s : State) (d : DriveId) (v : Bool) (h : s.params.hasDrive d = true) (hi : (s.drv d).step = .idle) :
    setVdisk d v s = .next (s.withVdisk d v) := by
  rw [setVdisk, onDrive_has d s _ h, if_pos hi, State.withVdisk]

theorem setVdisk_selected (s : State) (d : DriveId) (v : Bool) (h : s.params.hasDrive d = true) (hi : (s.drv d).step ≠ .idle) :
    setVdisk d v s = .refused .vdiskWhileSelected := by
  rw [setVdisk, onDrive_has d s _ h, if_neg hi]

theorem State.vdisk_withVdisk (s : State) (d : DriveId) (v : Bool) : (s.withVdisk d v).vdisk d = v := by
  cases d <;> rfl

theorem State.vdisk_withVdisk_other (s : State) (d e : DriveId) (v : Bool) (h : e ≠ d) : (s.withVdisk d v).vdisk e = s.vdisk e := by
  cases d <;> cases e
  case drive0.drive0 | drive1.drive1 => exact absurd rfl h
  all_goals rfl

/-! ## The obligations -/

/-- Settles O56, by the round-trip law of each constructor. -/
theorem decodeUndoesEncode : Obligations.DecodeUndoesEncode := decodeLine_encode

/-- Settles O57: each line is a closed input of the decoder. -/
theorem wordsOfTheSpecDecode : Obligations.WordsOfTheSpecDecode := by
  unfold Obligations.WordsOfTheSpecDecode
  decide

/-- Settles O58, from the step by the head of the trace and, with no line left, by the main loop's choice. -/
theorem stepRunsTheNextLine : Obligations.StepRunsTheNextLine := by
  refine ⟨fun s line rest i hb ht hd => step_of_line s line rest (.op i) (.inl hb) ht hd, fun s line rest v hw ht => ?_,
    step_of_mainLoopNext, step_of_idle, State.mainLoopNext_deselected⟩
  intro level
  have hstep (item : TraceItem) (hm : needsMainLoop item = false) (hd : decodeLine line = .ok item) :
      step s = runItem item { s with trace := rest } :=
    step_of_line s line rest item (hw.imp id fun hg => ⟨hg, hm⟩) ht hd
  refine ⟨hstep (.envSide v) rfl, hstep (.envWgate v) rfl, hstep (.envDir v) rfl, fun d hd => ?_⟩
  have hv : step s = setVdisk d v { s with trace := rest } := hstep (.envVdisk d v) rfl hd
  refine ⟨fun hp hi => ?_, fun hp hi => hv.trans (setVdisk_selected _ d v hp hi), fun hp => hv.trans (onDrive_absent d _ _ hp)⟩
  exact ⟨State.withVdisk { s with trace := rest } d v, hv.trans (setVdisk_idle _ d v hp hi), rfl, State.vdisk_withVdisk _ d v,
    fun e he => State.vdisk_withVdisk_other _ d e v he, rfl, rfl, rfl⟩

/-- Settles O59: the decoder rejects the selector, the arm of a frame refuses, and the drive is tested first. -/
theorem reservedSelectorsAreRefused : Obligations.ReservedSelectorsAreRefused := by
  refine ⟨fun s sel ops rest hb ht hl hm => ?_, fun _ _ _ _ _ _ => rfl, fun _ _ _ => rfl, fun _ _ _ => rfl,
    fun s d dl nt ns start ro ok => ⟨s.params.hasDrive_eq_false_iff d, fun hp i hi => ?_⟩⟩
  · exact step_of_rejected s (sel :: ops) rest _ hb ht (decodeSelector_reserved sel.toNat ops (not_or.2 ⟨not_not.2 hl, hm⟩))
  · have hd : i.driveOperand = some d := by
      revert i
      simp [Instr.driveOperand]
    exact exec_absent i d s hd hp

end Machine
end Sys2Proof
end

section
/-!
PROOFS. The CRC generator (spec/40_crc.md). Everything about one byte turns on one fact: a byte equal to the register's high byte meets
no feedback, so its eight shifts move the register up by a byte (`crcByte_hi8`). With linearity it gives the register after any byte
(`crcByte_eq_table`), the zero residue, and that different bytes or different registers never meet (`crcByte_byte_injective`,
`crcBytes_register_injective`).
-/

namespace Sys2Proof.Machine

/-! ## The register's own high byte as the input -/

theorem getLsbD_hi8 (v : Word16) (i : Nat) (h : i < 8) : (hi8 v).getLsbD i = v.getLsbD (8 + i) := by
  rw [hi8, BitVec.getLsbD_extractLsb', decide_eq_true h, Bool.true_and]

theorem hi8_shiftLeft_eight (v : Word16) : hi8 (v <<< 8) = lo8 v := by
  refine BitVec.eq_of_getLsbD_eq fun i hi => ?_
  rw [getLsbD_hi8 _ i hi, BitVec.getLsbD_shiftLeft, lo8, BitVec.getLsbD_extractLsb']
  simp [hi, show 8 + i < 16 by omega]

theorem lo8_shiftLeft_eight (v : Word16) : lo8 (v <<< 8) = 0#8 := by
  refine BitVec.eq_of_getLsbD_eq fun i hi => ?_
  rw [lo8, BitVec.getLsbD_extractLsb', BitVec.getLsbD_shiftLeft]
  simp [show i < 8 from hi]

/-- A bit equal to the one shifted out meets no feedback (R121). -/
theorem crcBit_no_feedback (poly c : Word16) : crcBit poly c (c.getLsbD 15) = c <<< 1 := by
  simp [crcBit]

/-- The first `n` bits of the register's high byte, most significant first, are shifted out and leave nothing else. -/
theorem foldl_crcBit_hi8 (poly c : Word16) (n : Nat) (h : n ≤ 8) :
    (List.range n).foldl (fun r i => crcBit poly r ((hi8 c).getLsbD (7 - i))) c = c <<< n := by
  induction n with
  | zero => exact (BitVec.shiftLeft_zero c).symm
  | succ n ih =>
    have hout : (hi8 c).getLsbD (7 - n) = (c <<< n).getLsbD 15 := by
      rw [getLsbD_hi8 _ _ (by omega), BitVec.getLsbD_shiftLeft, show 8 + (7 - n) = 15 - n by omega]
      simp [show ¬ 15 < n by omega]
    rw [List.range_succ, List.foldl_append, ih (by omega), List.foldl_cons, List.foldl_nil, hout, crcBit_no_feedback,
      BitVec.shiftLeft_add]

theorem crcByte_hi8 (poly c : Word16) : crcByte poly c (hi8 c) = c <<< 8 := foldl_crcBit_hi8 poly c 8 (Nat.le_refl 8)

/-! ## Any byte, and what it does not lose -/

/-- One byte by table: the register moves up a byte, and the byte that meets its high byte selects what is added. -/
theorem crcByte_eq_table (poly c : Word16) (x : Byte) : crcByte poly c x = (c <<< 8) ^^^ crcByte poly 0#16 (hi8 c ^^^ x) := by
  have h := crcByte_xor poly c 0#16 (hi8 c) (hi8 c ^^^ x)
  rwa [BitVec.xor_zero, ← BitVec.xor_assoc, BitVec.xor_self, BitVec.zero_xor, crcByte_hi8] at h

/-- Over the zero register and with the constant term present, only the zero byte leaves zero. -/
theorem crcByte_zero_register_eq_zero (poly : Word16) (x : Byte) (hp : poly.getLsbD 0 = true) (h : crcByte poly 0#16 x = 0#16) :
    x = 0#8 := by
  have hx : hi8 (word16 x 0#8) = x := hi8_word16 x 0#8
  have hs : word16 x 0#8 <<< 8 = 0#16 := by
    rw [← word16_hi8_lo8 (word16 x 0#8 <<< 8), hi8_shiftLeft_eight, lo8_shiftLeft_eight, lo8_word16]
    rfl
  have hw : crcByte poly (word16 x 0#8) 0#8 = 0#16 := by
    rw [crcByte_eq_table, hx, hs, BitVec.xor_zero, h, BitVec.xor_zero]
  rw [← hx, crcByte_zero_eq_zero poly _ hp hw]
  rfl

theorem crcByte_byte_injective (poly c : Word16) (x y : Byte) (hp : poly.getLsbD 0 = true) (h : crcByte poly c x = crcByte poly c y) :
    x = y := by
  have hz : crcByte poly 0#16 (x ^^^ y) = 0#16 := by
    rw [← BitVec.xor_self (x := c), crcByte_xor, h, BitVec.xor_self, BitVec.xor_self]
  exact BitVec.xor_eq_zero_iff.1 (crcByte_zero_register_eq_zero poly _ hp hz)

theorem crcByte_register_injective (poly a c : Word16) (x : Byte) (hp : poly.getLsbD 0 = true) (h : crcByte poly a x = crcByte poly c x) :
    a = c := by
  have hz : crcByte poly (a ^^^ c) 0#8 = 0#16 := by
    rw [← BitVec.xor_self (x := x), crcByte_xor, h, BitVec.xor_self]
  exact BitVec.xor_eq_zero_iff.1 (crcByte_zero_eq_zero poly _ hp hz)

/-- The same bytes never take two registers to one. -/
theorem crcBytes_register_injective (poly : Word16) (m : List Byte) (a c : Word16) (hp : poly.getLsbD 0 = true)
    (h : crcBytes poly a m = crcBytes poly c m) : a = c := by
  induction m generalizing a c with
  | nil => exact h
  | cons x m ih => exact crcByte_register_injective poly a c x hp (ih _ _ h)

/-- Changing one byte of a string to another one changes its CRC. -/
theorem eq_getElem_of_crcBytes_set (poly init : Word16) (m : List Byte) (k : Nat) (x : Byte) (h : k < m.length)
    (hp : poly.getLsbD 0 = true) (he : crcBytes poly init (m.set k x) = crcBytes poly init m) : x = m[k] := by
  have hm : m = m.take k ++ m[k] :: m.drop (k + 1) := by simp
  rw [List.set_eq_take_append_cons_drop, if_pos h] at he
  conv at he => rhs; rw [hm]
  rw [crcBytes_append, crcBytes_append, crcBytes_cons, crcBytes_cons] at he
  exact crcByte_byte_injective poly _ _ _ hp (crcBytes_register_injective poly _ _ _ hp he)

/-- A register's own two bytes, high byte first, bring it to zero (R126 (b)). -/
theorem crcBytes_self (poly c : Word16) : crcBytes poly c [hi8 c, lo8 c] = 0#16 := by
  rw [crcBytes_cons, crcBytes_cons, crcBytes_nil, crcByte_hi8, ← hi8_shiftLeft_eight, crcByte_hi8, ← BitVec.shiftLeft_add]
  exact BitVec.shiftLeft_eq_zero (Nat.le_refl 16)

/-- The table of the polynomial of D1: what R122's closed form adds for the byte `y`. -/
theorem crcByte_0x1021_zero_register : ∀ y : Byte,
    let w : Word16 := (y ^^^ (y >>> 4)).setWidth 16
    crcByte 0x1021#16 0#16 y = (w <<< 12) ^^^ (w <<< 5) ^^^ w := by decide

/-! ## The operations -/

/-- `CRC.BIT x[i]` (R121): the operand is `x` shifted so that its bit `i` is bit 0. -/
theorem exec_crcBit_shiftRight (x : Byte) (i : Nat) (s : State) :
    exec (.crcBit (x >>> i)) s
      = .next { s with crc := crcBit s.params.crcPoly s.crc (x.getLsbD i), result := .status .ok } := by
  show execCrcBit _ _ = _
  rw [execCrcBit, BitVec.getLsbD_ushiftRight, Nat.add_zero]

theorem exec_crcByte (x : Byte) (s : State) :
    exec (.crcByte x) s = .next { s with crc := crcByte s.params.crcPoly s.crc x, result := .status .ok } := rfl

theorem exec_crcBlk (off len : Word16) (s : State) :
    exec (.crcBlk off len) s = onRange off.toNat len.toNat (.next ((s.crcBlock off.toNat len.toNat).returning
      (.crc (s.crcBlock off.toNat len.toNat).crc))) := rfl

theorem exec_crcPut (off : Word16) (s : State) :
    exec (.crcPut off) s = onRange off.toNat 2 (.next (s.crcPut off.toNat).returningOk) := rfl

theorem exec_crcCmp (off : Word16) (s : State) :
    exec (.crcCmp off) s = onRange off.toNat 2 (.next (s.returning (.bool (s.crcMatches off.toNat)))) := rfl

theorem crcBytes_bufRange (poly c : Word16) (s : State) (off len : Nat) :
    crcBytes poly c (s.bufRange off len) = (List.range len).foldl (fun c k => crcByte poly c (s.bufByte (off + k))) c := by
  rw [crcBytes, State.bufRange, List.foldl_map]

/-- After `CRC.PUT off` the register is what stands at `off` (R124, R125). -/
theorem State.crcMatches_crcPut (s : State) (off : Nat) : (s.crcPut off).crcMatches off = true := by
  rw [State.crcMatches_iff, State.bufByte_crcPut, State.bufByte_crcPut, if_pos rfl, if_neg (by omega), if_pos rfl]
  exact ⟨rfl, rfl⟩

/-! ## The obligations -/

/-- Settles O3: the eight meanings of `CRC.BIT` run one after the other; the closed form is the table of `0x1021`. -/
theorem crcByteIsEightShifts : Obligations.CrcByteIsEightShifts := by
  intro s x
  refine ⟨_, exec_crcByte x s, ?_, rfl, fun hp => ?_⟩
  · simp only [List.foldl_cons, List.foldl_nil, andThen_next_left, exec_crcBit_shiftRight, crcByte_eq]
  · intro t0 t1 w
    show crcByte s.params.crcPoly s.crc x = _
    rw [hp, crcByte_eq_table, crcByte_0x1021_zero_register, ← BitVec.xor_assoc, ← BitVec.xor_assoc]

/-- Settles O7: the byte that differs leaves another register, and the bytes after it keep the registers apart. -/
theorem crcDetectsEverySingleBit : Obligations.CrcDetectsEverySingleBit := by
  intro poly init m k j h hp hj he
  have hb : m[k] ^^^ (1#8 <<< j) = m[k] := eq_getElem_of_crcBytes_set poly init m k _ h hp he
  have hbit := congrArg (fun y : Byte => y.getLsbD j) hb
  simp [hj] at hbit

/-- Settles O1: the opcode, the parameter and the meaning are each the one the model is defined with. -/
theorem crcResetLoadsPreset : Obligations.CrcResetLoadsPreset := ⟨rfl, rfl, fun _ => rfl⟩

/-- Settles O2: the operation is one shift, whose bits `getLsbD_crcBit` gives. -/
theorem crcBitShiftsOneBit : Obligations.CrcBitShiftsOneBit := fun s b =>
  ⟨crcBit s.params.crcPoly s.crc (b.getLsbD 0), rfl, getLsbD_crcBit _ _ _⟩

/-- Settles O4: inside `BUF` the operation is the fold over the bytes of its range, outside it the range test refuses. -/
theorem crcBlockCoversItsRange : Obligations.CrcBlockCoversItsRange := by
  intro s off len
  rw [exec_crcBlk]
  refine ⟨fun h => ?_, onRange_out _ _ _⟩
  rw [onRange_in _ _ _ h, State.crcBlock_eq, crcBytes_bufRange]
  rfl

/-- Settles O5, by what each byte of `BUF` is after the store and by the comparison of two bytes. -/
theorem crcPutAndCompare : Obligations.CrcPutAndCompare := by
  intro s off
  simp only [exec_crcPut, exec_crcCmp]
  refine ⟨fun h => ?_, fun h => ⟨onRange_out _ _ _ h, onRange_out _ _ _ h⟩⟩
  simp only [onRange_in _ _ _ h]
  refine ⟨⟨(s.crcPut off.toNat).returningOk, rfl, ?_, ?_, fun a ha => ?_, rfl, ?_⟩, ?_⟩
  · rw [State.returningOk_bufByte, State.bufByte_crcPut, if_pos rfl]
  · rw [State.returningOk_bufByte, State.bufByte_crcPut, if_neg (by omega), if_pos rfl]
  · obtain ⟨h0, h1⟩ := not_or.1 ha
    rw [State.returningOk_bufByte, State.bufByte_crcPut, if_neg h0, if_neg h1]
  · have hm : (s.crcPut off.toNat).returningOk.crcMatches off.toNat = true := s.crcMatches_crcPut off.toNat
    rw [hm]
    rfl
  · rw [State.crcMatches_eq]
    rfl

/-- Settles O6: a register's own bytes bring it to zero; the three bytes `A1` take one preset to the other. -/
theorem crcZeroResidueAndPreset : Obligations.CrcZeroResidueAndPreset := by
  refine ⟨fun poly init m => ?_, fun m => ?_⟩
  · rw [crcBytes_append, crcBytes_self]
  · have hpre : crcBytes 0x1021#16 0xFFFF#16 [0xA1#8, 0xA1#8, 0xA1#8] = 0xCDB4#16 := by decide
    rw [crcBytes_append, hpre]

end Sys2Proof.Machine
end

section
/-!
PROOFS. The framer, the checkers and the transceiver calls (spec/41_framer.md, R140 to R146, R153 to R155). Each building action of the framer has
its spec lemma under Laws; here what they leave is read as the frames of R91 to R93, and the checkers' tests as the comparisons the rules write.
-/

namespace Sys2Proof.Machine

/-! ## The operations -/

theorem exec_frmHdr (base : Word16) (t h sec n : Byte) (s : State) :
    exec (.frmHdr base t h sec n) s = onRange base.toNat 7 (.next (s.buildHeader base.toNat t h sec n).returningOk) := rfl

theorem exec_frmDat512 (s : State) : exec .frmDat512 s = .next s.frameFull.returningOk := rfl

theorem exec_frmDat256A (s : State) : exec .frmDat256A s = .next s.frameFirstHalf.returningOk := rfl

theorem exec_frmDat256B (s : State) :
    exec .frmDat256B s = .next (s.foundRunning.frameSecondHalf s.runningDrive).returningOk := rfl

theorem exec_datChk512 (s : State) :
    exec .datChk512 s = .next ((s.crcBlock 8 513).returning (.bool ((s.crcBlock 8 513).crcMatches 521))) := rfl

theorem exec_datChk256 (h : Byte) (s : State) :
    exec (.datChk256 h) s = .next ((s.crcBlock (halfBase h.toNat) 257).returning
      (.bool ((s.crcBlock (halfBase h.toNat) 257).crcMatches (halfBase h.toNat + 257)))) := rfl

theorem exec_xcvTx (base len : Word16) (s : State) :
    exec (.xcvTx base len) s = .next ((s.foundRunning.call (.transmit (s.foundRunning.namedRange base.toNat len.toNat)
      (s.drv s.runningDrive).bitLength)).tookNamed base.toNat len.toNat).returningOk := rfl

/-- `XCV.RB` with WRITE_GATE released is the readback (R155). -/
theorem exec_xcvRb_released (base len : Word16) (s : State) (h : s.inp.writeGate = .released) :
    exec (.xcvRb base len) s = .next ((s.readBack base.toNat len.toNat).returning (.readback s.readbackOk)) := by
  show execXcvRb base len s = _
  rw [execXcvRb, h, if_neg (by decide)]

/-- `XCV.RB` with WRITE_GATE asserted waits (R155). -/
theorem exec_xcvRb_asserted (base len : Word16) (s : State) (h : s.inp.writeGate = .asserted) :
    exec (.xcvRb base len) s = .next (s.waiting (.xcvRb base len)) := if_pos h

/-- The status of a readback is the answer's (R155). -/
theorem State.readbackOk_eq (s : State) : s.readbackOk = decide (s.answer.st = 0) := by
  rw [Bool.eq_iff_iff, State.readbackOk, beq_iff_eq, decide_eq_true_iff]

/-- `HDR.CHK` on another first byte inside `BUF` than the mark: no CRC operation is reached (R144). -/
theorem exec_hdrChk_unmarked (base : Word16) (s : State) (hb : base.toNat < 536) (h : s.bufByte base.toNat ≠ 0xFE#8) :
    exec (.hdrChk base) s = .next (s.returning (.status .hdrBad)) := by
  show execHdrChk base s = _
  rw [execHdrChk, s.namedByte_in _ hb, if_neg (by simpa using h), s.tookNamed_in _ 1 hb]

/-- `HDR.CHK` past its mark runs its two CRC operations over seven bytes (R144, U16). -/
theorem exec_hdrChk_marked (base : Word16) (s : State) (hb : base.toNat < 536) (h : s.bufByte base.toNat = 0xFE#8) :
    exec (.hdrChk base) s = onRange base.toNat 7 (.next (s.checkHeader base.toNat)) := by
  show execHdrChk base s = _
  rw [execHdrChk, s.namedByte_in _ hb, if_pos (by simpa using h)]

/-- `HDR.CHK` on a first byte that does not exist tests a free value (assumption log 28). -/
theorem exec_hdrChk_outside (base : Word16) (s : State) (hb : 536 ≤ base.toNat) :
    exec (.hdrChk base) s = .next { s with result := .status .hdrBad, draws := s.draws + 1 } ∨
    exec (.hdrChk base) s = .refused .bufferRange := by
  show execHdrChk base s = _ ∨ execHdrChk base s = _
  rw [execHdrChk]
  split
  · exact .inr (onRange_out _ _ _ (by omega))
  · have hr : inBuf base.toNat 1 = false := decide_eq_false (by rw [bufLen]; omega)
    left
    simp [State.tookNamed, State.returning, hr]

/-! ## What the framer leaves -/

/-- With its gap byte outside `BUF` the header is its seven other bytes (assumption log 28). -/
theorem State.buildHeader_last (s : State) (t h sec n : Byte) :
    s.buildHeader 529 t h sec n = ((s.putBuf 529 [0xFE#8, t, h, sec, n]).crcBlock 529 5).crcPut (529 + 5) :=
  State.putNamed_out _ _ _ (by decide)

/-- A data field whose payload `u` still has from `s`, read whole: mark, payload, CRC, gap byte (R92, R93). -/
theorem State.bufRange_framed (s u : State) (off len : Nat) (c : Word16) (h0 : u.bufByte off = 0xFB#8)
    (h1 : u.bufByte (off + 1 + len) = hi8 c) (h2 : u.bufByte (off + 1 + len + 1) = lo8 c) (h3 : u.bufByte (off + 1 + len + 2) = 0x4E#8)
    (hp : ∀ a, off + 1 ≤ a → a < off + 1 + len → u.bufByte a = s.bufByte a) :
    u.bufRange off (len + 4) = 0xFB#8 :: (s.bufRange (off + 1) len ++ [hi8 c, lo8 c, 0x4E#8]) := by
  rw [u.bufRange_dataField off len c h0 h1 h2 h3, State.bufRange_eq s u _ _ hp]

/-- A range that was copied elsewhere byte by byte. -/
theorem State.bufRange_copied (s u : State) (dst src len : Nat) (h : ∀ k, k < len → u.bufByte (dst + k) = s.bufByte (src + k)) :
    u.bufRange dst len = s.bufRange src len :=
  u.bufRange_ext dst len _ (by simp) fun k hk => by rw [State.getElem_bufRange, h k (by simpa using hk)]

/-! ## What the checkers compare -/

/-- The verdict of `HDR.CHK` past its mark, as the rule writes it (R144). -/
theorem State.headerVerdict_eq (s : State) (b : Nat) :
    (s.crcBlock b 5).headerVerdict b =
      let c := crcBytes s.params.crcPoly s.params.crcInit (s.bufRange b 5)
      if s.bufByte (b + 5) = hi8 c ∧ s.bufByte (b + 6) = lo8 c ∧ (s.bufByte (b + 4) = 1#8 ∨ s.bufByte (b + 4) = 2#8) then
        .header (s.bufByte (b + 1)) (s.bufByte (b + 2)) (s.bufByte (b + 3)) (s.bufByte (b + 4))
      else .status .hdrBad := by
  unfold State.headerVerdict
  simp only [Bool.and_eq_true, State.crcBlock_matches_iff, legalLengthCode_iff, State.crcBlock_bufByte, and_assoc]

/-- A block computed and compared with two bytes: the register and the result (R145, R146). -/
theorem State.checkedBlock_eq (s : State) (off len at0 : Nat) :
    (s.crcBlock off len).returning (.bool ((s.crcBlock off len).crcMatches at0)) =
      { s with crc := crcBytes s.params.crcPoly s.params.crcInit (s.bufRange off len),
               result := .bool (decide (s.bufByte at0 = hi8 (crcBytes s.params.crcPoly s.params.crcInit (s.bufRange off len)) ∧
                 s.bufByte (at0 + 1) = lo8 (crcBytes s.params.crcPoly s.params.crcInit (s.bufRange off len)))) } := by
  rw [State.crcMatches_eq]; rfl

/-! ## The obligations -/

/-- Settles O8: the header's seven bytes, with the gap byte where it has a place. -/
theorem headerIsTheIdField : Obligations.HeaderIsTheIdField := by
  intro s base t h sec n
  rw [exec_frmHdr]
  refine ⟨fun hb => ⟨_, onRange_in _ _ _ hb, ?_⟩, onRange_out _ _ _⟩
  rcases Nat.lt_or_ge 528 base.toNat with h529 | h528
  · have hbase : base.toNat = 529 := by omega
    rw [hbase, State.buildHeader_last]
    obtain ⟨hc, hr, ho, he⟩ := s.headerFields_spec 529 t h sec n
    generalize ((s.putBuf 529 [0xFE#8, t, h, sec, n]).crcBlock 529 5).crcPut (529 + 5) = u at *
    exact ⟨hc, fun h8 => absurd h8 (by decide), fun _ => hc ▸ hr, fun a ha => ho a (by omega), congrArg State.returningOk he⟩
  · obtain ⟨hc, hr, ho, he⟩ := s.buildHeader_spec base.toNat t h sec n (by omega)
    generalize s.buildHeader base.toNat t h sec n = u at *
    exact ⟨hc, fun _ => hc ▸ hr, fun h529 => absurd h529 (by omega), fun a ha => ho a (by omega), congrArg State.returningOk he⟩

/-- Settles O9, by what `FRM.DAT512` leaves at 8, and that the payload stays. -/
theorem fullDataField : Obligations.FullDataField := by
  intro s
  rw [exec_frmDat512]
  obtain ⟨hc, h8, h1, h2, h3, ho, he⟩ := s.frameFull_spec
  generalize s.frameFull = u at *
  rw [← hc] at h1 h2
  exact ⟨u.returningOk, rfl, hc,
    State.bufRange_framed s u 8 512 _ h8 h1 h2 h3 fun a ha hb => ho a (by omega) (by omega),
    fun a ha => ho a (by omega) (by omega), congrArg State.returningOk he⟩

/-- Settles O10, by what `FRM.DAT256A` leaves at 8 and in `SCR3`. -/
theorem firstHalfDataField : Obligations.FirstHalfDataField := by
  intro s
  rw [exec_frmDat256A]
  obtain ⟨hc, h8, h1, h2, h3, hs, ho, he⟩ := s.frameFirstHalf_spec
  generalize s.frameFirstHalf = u at *
  rw [← hc] at h1 h2
  exact ⟨u.returningOk, rfl, hc,
    State.bufRange_framed s u 8 256 _ h8 h1 h2 h3 fun a ha hb => ho a (by omega) (by omega),
    State.bufRange_copied s u 524 265 3 hs, fun a ha => ho a (by omega) (by omega), congrArg State.returningOk he⟩

/-- Settles O11: the running drive is the Selected one where there is one, and the framing reads nothing else of the drives. -/
theorem secondHalfDataField : Obligations.SecondHalfDataField := by
  intro s
  rw [exec_frmDat256B]
  obtain ⟨hd0, hd1, hdn, hf⟩ := s.runningDrive_spec
  obtain ⟨hc, hid, h264, h1, h2, h3, hs, ho, he⟩ := s.foundRunning.frameSecondHalf_spec s.runningDrive
  generalize s.foundRunning.frameSecondHalf s.runningDrive = u at *
  rw [← hc] at h1 h2
  refine ⟨u.returningOk, s.runningDrive, rfl, hd0, hd1, hdn, hid, hc,
    State.bufRange_framed s u 264 256 _ h264 h1 h2 h3 fun a ha hb => ho a (by omega),
    State.bufRange_copied s u 527 256 9 hs, fun a ha => ho a (by omega), ?_, fun hsel => ?_⟩
  · rw [he]; rfl
  · show u.draws = s.draws
    rw [he, hf hsel]

/-- Settles O13: the mark, then the range of the CRC operations, then their verdict. -/
theorem headerCheckVerdict : Obligations.HeaderCheckVerdict := by
  intro s base b c
  refine ⟨exec_hdrChk_unmarked base s, fun hb hm => ?_, fun hb hr hm => ?_, exec_hdrChk_outside base s⟩
  · rw [exec_hdrChk_marked base s (by omega) hm, onRange_in _ _ _ hb]
    exact ⟨_, rfl, rfl, fun h => (s.headerVerdict_eq b).trans (if_pos h), fun h => (s.headerVerdict_eq b).trans (if_neg h)⟩
  · rw [exec_hdrChk_marked base s hb hm, onRange_out _ _ _ hr]

/-- Settles O12: the check finds the five bytes of the header it was framed with, and their CRC after them. -/
theorem headerRoundTrip : Obligations.HeaderRoundTrip := by
  intro s base t h sec n hb hn
  obtain ⟨hc, hr, -, he⟩ := s.buildHeader_spec base.toNat t h sec n hb
  have hu : exec (.frmHdr base t h sec n) s = .next (s.buildHeader base.toNat t h sec n).returningOk := onRange_in _ _ _ (by omega)
  have hp : (s.buildHeader base.toNat t h sec n).returningOk.params = s.params := by rw [he]; rfl
  change (s.buildHeader base.toNat t h sec n).returningOk.bufRange base.toNat 8 = _ at hr
  generalize (s.buildHeader base.toNat t h sec n).returningOk = u at hu hp hr
  simp only [State.bufRange_succ, State.bufRange_zero, List.cons.injEq, and_true, Nat.add_assoc, Nat.reduceAdd] at hr
  obtain ⟨b0, b1, b2, b3, b4, b5, b6, -⟩ := hr
  have h5 : u.bufRange base.toNat 5 = [0xFE#8, t, h, sec, n] := by
    simp only [State.bufRange_succ, State.bufRange_zero, Nat.add_assoc, Nat.reduceAdd, b0, b1, b2, b3, b4]
  obtain ⟨-, hgood, -⟩ := headerCheckVerdict u base
  obtain ⟨v, hv, hframe, hres, -⟩ := hgood (by omega) b0
  refine ⟨u, v, hu, hv, ?_, by rw [hframe]⟩
  rw [hres ⟨by rw [h5, hp, b5], by rw [h5, hp, b6], by rwa [b4]⟩, b1, b2, b3, b4]

/-- Settles O16: the readback draws its range, and waits for WRITE_GATE. -/
theorem readbackDrawsTheNamedRange : Obligations.ReadbackDrawsTheNamedRange := by
  intro s base len
  refine ⟨fun hg => ?_, exec_xcvRb_asserted base len s⟩
  obtain ⟨ho, hk, hgiven, he⟩ := s.readBack_spec base.toNat len.toNat
  exact ⟨_, exec_xcvRb_released base len s hg, congrArg Returned.readback s.readbackOk_eq, fun a ha => ho a (by omega), hk, hgiven,
    congrArg (State.returning · _) he⟩

/-- Settles O14: each check is a block computed and compared with the two bytes after it. -/
theorem dataChecksCompareTheTrailer : Obligations.DataChecksCompareTheTrailer := by
  intro s
  refine ⟨?_, ?_, fun h hh => ?_⟩
  · rw [exec_datChk512, s.checkedBlock_eq]
  · rw [exec_datChk256, s.checkedBlock_eq]; rfl
  · have hb : halfBase h.toNat = 264 := if_neg fun h0 => hh (BitVec.eq_of_toNat_eq h0)
    rw [exec_datChk256, hb, s.checkedBlock_eq]

/-- Settles O15: the range as its operands name it, with the running drive's `bitLength`. -/
theorem transmitHandsTheRange : Obligations.TransmitHandsTheRange := by
  intro s base len
  obtain ⟨hd0, hd1, hdn, hf⟩ := s.runningDrive_spec
  rw [exec_xcvTx]
  refine ⟨s.runningDrive, (s.foundRunning.tookNamed base.toNat len.toNat).draws, s.foundRunning.namedRange base.toNat len.toNat,
    hd0, hd1, hdn, fun hsel hb => ?_, State.length_namedRange _ _ _, fun k hk hb => State.getElem_namedRange _ _ _ k hk hb, ?_⟩
  · rw [State.tookNamed_in _ _ _ hb, hf hsel]
  · rw [State.tookNamed, State.tookNamed, State.call_draws]
    generalize s.foundRunning.namedRange base.toNat len.toNat = bytes
    rfl

end Sys2Proof.Machine
end

section
/-!
PROOFS. Step 6 with a full sector (spec/41_framer.md, R147, R148) and the half-sector write (R156). The two write paths are given by one equation per
outcome; what either of them can leave of a state is said once (`WritePath`), and `FRM.SLOT512` is that after a transmission and a readback.
-/

namespace Sys2Proof.Machine

/-! ## The write paths, one equation per outcome (R225, R226, R156) -/

theorem State.writeFull_mismatch (s : State) (d : DriveId) (hm : s.fullMatches = false) :
    s.writeFull d = (.crcMismatch, s.checkedFull.report .crcMismatch d 0 0) := by simp [State.writeFull, hm]

theorem State.writeFull_physical (s : State) (d : DriveId) (idx : Nat) (hm : s.fullMatches = true) (hr : s.resolve false d = .physical idx) :
    s.writeFull d = finishWrite d 0 (s.checkedFull.writeSlot (.memWrite .pstore idx) .pstore idx 0 (s.bufRange 9 512)) := by
  simp [State.writeFull, hm, hr]

theorem State.writeFull_virtual (s : State) (d : DriveId) (v : Nat) (hm : s.fullMatches = true) (hr : s.resolve false d = .virtual v) :
    s.writeFull d = finishWrite d 0 (s.checkedFull.writeSlot (.memWrite .vstore v) .vstore v 0 (s.bufRange 9 512)) := by
  simp [State.writeFull, hm, hr]

theorem State.writeFull_noMedia (s : State) (d : DriveId) (hm : s.fullMatches = true) (hr : s.resolve false d = .noMedia) :
    s.writeFull d = (.noMedia, s.checkedFull) := by simp [State.writeFull, hm, hr]

theorem State.writeHalf_mismatch (s : State) (d : DriveId) (h off : Nat) (hm : s.halfMatches h = false) :
    s.writeHalf d h off = (.crcMismatch, (s.checkedHalf h).report .crcMismatch d off 0) := by simp [State.writeHalf, hm]

theorem State.writeHalf_physical (s : State) (d : DriveId) (h off idx : Nat) (hm : s.halfMatches h = true)
    (hr : s.resolve true d = .physical idx) :
    s.writeHalf d h off =
      finishWrite d off ((s.checkedHalf h).writeSlot (.halfWrite idx h) .pstore idx (256 * h) (s.bufRange (9 + 256 * h) 256)) := by
  simp [State.writeHalf, hm, hr]

theorem State.writeHalf_noMedia (s : State) (d : DriveId) (h off : Nat) (hm : s.halfMatches h = true) (hr : s.resolve true d = .noMedia) :
    s.writeHalf d h off = (.ok, s.checkedHalf h) := by simp [State.writeHalf, hm, hr]

theorem State.writeSector_half (s : State) (d : DriveId) (h : s.params.half d = true) :
    s.writeSector d = (s.withMedia d (s.writeHalf d (lbaHalf (s.drv d)) 0).1, (s.writeHalf d (lbaHalf (s.drv d)) 0).2) := if_pos h

theorem State.writeSector_full (s : State) (d : DriveId) (h : s.params.half d = false) : s.writeSector d = s.writeFull d :=
  if_neg (by rw [h]; decide)

theorem State.writeMatches_half (s : State) (d : DriveId) (h : s.params.half d = true) :
    s.writeMatches d = s.halfMatches (lbaHalf (s.drv d)) := if_pos h

theorem State.writeMatches_full (s : State) (d : DriveId) (h : s.params.half d = false) : s.writeMatches d = s.fullMatches :=
  if_neg (by rw [h]; decide)

/-- Only the absence of a medium changes what `SEC.WR` returns in half-sector mode (R224). -/
theorem State.withMedia_of_ne (s : State) (d : DriveId) (st : Status) (h : s.resolve true d ≠ .noMedia) : s.withMedia d st = st :=
  if_neg fun hc => h hc.2

theorem State.withMedia_noMedia (s : State) (d : DriveId) (h : s.resolve true d = .noMedia) : s.withMedia d .ok = .noMedia :=
  if_pos ⟨rfl, h⟩

/-- A check writes the register and nothing else (R145, R146). -/
theorem State.checkedFull_eq (s : State) : ∃ c, s.checkedFull = { s with crc := c } := ⟨_, rfl⟩

theorem State.checkedHalf_eq (s : State) (h : Nat) : ∃ c, s.checkedHalf h = { s with crc := c } := ⟨_, rfl⟩

theorem lbaHalf_lt (x : Drive) : lbaHalf x < 2 := Nat.mod_lt _ (by decide)

/-! ## `SEC.WR` and `FRM.SLOT512` as operations -/

theorem exec_secWr_goes (s : State) (d : DriveId) (hd : s.params.hasDrive d = true)
    (h : s.writeStop (s.params.half d) d (s.writeMatches d) = none) :
    exec (.secWr d) s = .next ((s.writeSector d).2.returning (.status (s.writeSector d).1)) := by
  show execSecWr d s = _
  rw [execSecWr, onDrive_has d s _ hd, h]

theorem exec_secWr_stops (s : State) (d : DriveId) (r : Refusal) (hd : s.params.hasDrive d = true)
    (h : s.writeStop (s.params.half d) d (s.writeMatches d) = some r) : exec (.secWr d) s = .refused r := by
  show execSecWr d s = _
  rw [execSecWr, onDrive_has d s _ hd, h]

section
variable {s : State} {d : DriveId} (hd : s.params.hasDrive d = true) (hs : s.supported d = true) (hg : s.inp.writeGate = .released)
include hd hs hg

theorem exec_frmSlot512_goes (h : s.writeStop (s.params.half d) d (s.slotFullClean d) = none) :
    exec (.frmSlot512 d) s = .next ((s.slotFull d).2.returning (.status (s.slotFull d).1)) := by
  have hr : s.runSlot512 d = .done (s.slotFull d).1 (s.slotFull d).2 := by simp [State.runSlot512, hs, hg, h]
  show execFrmSlot512 d s = _
  rw [execFrmSlot512, onDrive_has d s _ hd, hr]

theorem exec_frmSlot512_stops (r : Refusal) (h : s.writeStop (s.params.half d) d (s.slotFullClean d) = some r) :
    exec (.frmSlot512 d) s = .refused r := by
  have hr : s.runSlot512 d = .stop r := by simp [State.runSlot512, hs, hg, h]
  show execFrmSlot512 d s = _
  rw [execFrmSlot512, onDrive_has d s _ hd, hr]

end

theorem exec_frmSlot512_unsupported (s : State) (d : DriveId) (hd : s.params.hasDrive d = true) (hs : s.supported d = false) :
    exec (.frmSlot512 d) s = .next ((s.report .unsupportedFormat d 0 0).returning (.status .unsupportedFormat)) := by
  have hr : s.runSlot512 d = .done .unsupportedFormat (s.report .unsupportedFormat d 0 0) := by simp [State.runSlot512, State.unsupportedSlot, hs]
  show execFrmSlot512 d s = _
  rw [execFrmSlot512, onDrive_has d s _ hd, hr]

/-! ## What a write path can leave -/

/-- What a write path for drive `d` can make of `r`, where its data passes its CRC test if `clean` and it makes the calls `w`: the register, the slot its
target names, one report about the drive's own sector, and no more than one call (R225, R226, R228). -/
structure WritePath (half clean : Bool) (d : DriveId) (r u : State) (w : List Call) : Prop where
  frame : u = { r with crc := u.crc, pstore := u.pstore, vstore := u.vstore, reports := u.reports, calls := r.calls ++ w, answers := u.answers,
                       draws := u.draws }
  oneCall : w.length ≤ 1
  calls : half = false → ∀ c ∈ w, (∃ idx, r.resolve false d = .physical idx ∧ c = .memWrite .pstore idx) ∨
    ∃ v, r.resolve false d = .virtual v ∧ c = .memWrite .vstore v
  physical : ∀ idx, r.resolve half d = .physical idx →
    u.vstore = r.vstore ∧ ∀ a, a < 512 * idx ∨ 512 * idx + 512 ≤ a → u.storeByte .pstore a = r.storeByte .pstore a
  virtual : ∀ v, r.resolve half d = .virtual v →
    u.pstore = r.pstore ∧ ∀ a, a < 512 * v ∨ 512 * v + 512 ≤ a → u.storeByte .vstore a = r.storeByte .vstore a
  untouched : r.resolve half d = .noMedia ∨ clean = false → u.pstore = r.pstore ∧ u.vstore = r.vstore
  reports : u.reports = r.reports ∨ ∃ code st, u.reports = r.reports ++ [r.record d 0 code st]

/-- A path that ends before its store: at the CRC test, or with no medium. -/
theorem WritePath.noStore (half clean : Bool) (d : DriveId) (r : State) (c : Word16) (l : List Report)
    (hl : l = r.reports ∨ ∃ code st, l = r.reports ++ [r.record d 0 code st]) :
    WritePath half clean d r { r with crc := c, reports := l } [] where
  frame := by rw [List.append_nil]
  oneCall := by simp
  calls := fun _ c hc => absurd hc (by simp)
  physical := fun _ _ => ⟨rfl, fun _ _ => rfl⟩
  virtual := fun _ _ => ⟨rfl, fun _ _ => rfl⟩
  untouched := fun _ => ⟨rfl, rfl⟩
  reports := hl

/-- A path that reaches its store, whatever the store answers. -/
theorem WritePath.slot (half : Bool) (d : DriveId) (r : State) (x : Word16) (c : Call) (sp : Space) (address k : Nat) (bs : List Byte)
    (hk : k + bs.length ≤ 512)
    (ht : (sp = .pstore ∧ r.resolve half d = .physical address) ∨ (sp = .vstore ∧ r.resolve half d = .virtual address))
    (hc : half = false → c = .memWrite sp address) :
    WritePath half true d r (finishWrite d 0 (({ r with crc := x } : State).writeSlot c sp address k bs)).2 [c] := by
  obtain ⟨a1, a2, a3, a4, a5⟩ := finishWrite_spec ({ r with crc := x } : State) d c sp address k 0 bs hk
  generalize finishWrite d 0 (({ r with crc := x } : State).writeSlot c sp address k bs) = u at *
  have kept : ∀ a, a < 512 * address ∨ 512 * address + 512 ≤ a → u.2.storeByte sp a = r.storeByte sp a :=
    fun a ha => (a3 a ha).trans (by cases sp <;> rfl)
  refine ⟨by rw [a1], by simp, fun hh e he => ?_, fun idx hi => ?_, fun v hv => ?_, fun hn => ?_, ?_⟩
  · rw [List.mem_singleton.1 he, hc hh]
    subst hh
    rcases ht with ⟨rfl, ht⟩ | ⟨rfl, ht⟩
    · exact .inl ⟨address, ht, rfl⟩
    · exact .inr ⟨address, ht, rfl⟩
  · rcases ht with ⟨rfl, ht⟩ | ⟨rfl, ht⟩ <;> rw [ht] at hi <;> cases hi
    exact ⟨a2 .vstore (by decide), kept⟩
  · rcases ht with ⟨rfl, ht⟩ | ⟨rfl, ht⟩ <;> rw [ht] at hv <;> cases hv
    exact ⟨a2 .pstore (by decide), kept⟩
  · rcases ht with ⟨-, ht⟩ | ⟨-, ht⟩ <;> rw [ht] at hn <;> simp at hn
  · by_cases h0 : r.answer.st = 0
    · exact .inl (a4 h0).2.1
    · exact .inr ⟨.storageWriteError, r.answer.st, (a5 h0).2⟩

/-- The write path of a full sector (R225), where it is not refused. -/
theorem State.writeFull_path (r : State) (d : DriveId) (hs : ∀ x, r.resolve false d = .stop x → r.fullMatches = false) :
    ∃ w, WritePath false r.fullMatches d r (r.writeFull d).2 w := by
  obtain ⟨c, hc⟩ := r.checkedFull_eq
  cases hm : r.fullMatches with
  | false =>
    rw [r.writeFull_mismatch d hm, hc]
    exact ⟨[], .noStore _ _ d r c _ (.inr ⟨.crcMismatch, 0, rfl⟩)⟩
  | true =>
    cases hr : r.resolve false d with
    | physical idx =>
      rw [r.writeFull_physical d idx hm hr, hc]
      exact ⟨_, .slot false d r _ _ .pstore idx 0 _ (by simp) (.inl ⟨rfl, hr⟩) fun _ => rfl⟩
    | virtual v =>
      rw [r.writeFull_virtual d v hm hr, hc]
      exact ⟨_, .slot false d r _ _ .vstore v 0 _ (by simp) (.inr ⟨rfl, hr⟩) fun _ => rfl⟩
    | noMedia =>
      rw [r.writeFull_noMedia d hm hr, hc]
      exact ⟨[], .noStore _ _ d r _ _ (.inl rfl)⟩
    | stop x => rw [hs x hr] at hm; cases hm

/-- The write path of one half (R156), where it is not refused. -/
theorem State.writeHalf_path (r : State) (d : DriveId) (h : Nat) (h2 : h < 2) (hs : ∀ x, r.resolve true d = .stop x → r.halfMatches h = false) :
    ∃ w, WritePath true (r.halfMatches h) d r (r.writeHalf d h 0).2 w := by
  obtain ⟨c, hc⟩ := r.checkedHalf_eq h
  cases hm : r.halfMatches h with
  | false =>
    rw [r.writeHalf_mismatch d h 0 hm, hc]
    exact ⟨[], .noStore _ _ d r c _ (.inr ⟨.crcMismatch, 0, rfl⟩)⟩
  | true =>
    cases hr : r.resolve true d with
    | physical idx =>
      rw [r.writeHalf_physical d h 0 idx hm hr, hc]
      exact ⟨_, .slot true d r _ _ .pstore idx (256 * h) _ (by simp; omega) (.inl ⟨rfl, hr⟩) nofun⟩
    | virtual v => exact absurd hr (r.resolve_half_not_virtual d v)
    | noMedia =>
      rw [r.writeHalf_noMedia d h 0 hm hr, hc]
      exact ⟨[], .noStore _ _ d r _ _ (.inl rfl)⟩
    | stop x => rw [hs x hr] at hm; cases hm

/-- `SEC.WR` in either mode, where it is not refused. -/
theorem State.writeSector_path (r : State) (d : DriveId) (hs : ∀ x, r.resolve (r.params.half d) d = .stop x → r.writeMatches d = false) :
    ∃ w, WritePath (r.params.half d) (r.writeMatches d) d r (r.writeSector d).2 w := by
  cases hh : r.params.half d with
  | true =>
    rw [hh, r.writeMatches_half d hh] at hs
    rw [r.writeSector_half d hh, r.writeMatches_half d hh]
    exact r.writeHalf_path d _ (lbaHalf_lt _) hs
  | false =>
    rw [hh, r.writeMatches_full d hh] at hs
    rw [r.writeSector_full d hh, r.writeMatches_full d hh]
    exact r.writeFull_path d hs

/-- A full sector whose data passes its test on a READY drive, where the store answers 0 (R225, R227): one call, and the slot holds the payload. -/
theorem State.writeFull_stores (r : State) (d : DriveId) (idx : Nat) (hm : r.fullMatches = true) (hr : r.resolve false d = .physical idx)
    (h0 : r.answer.st = 0) :
    let u := r.writeFull d
    u.1 = .ok ∧
    u.2 = { r with crc := u.2.crc, pstore := u.2.pstore, calls := r.calls ++ [.memWrite .pstore idx], answers := r.answers.tail,
                   draws := r.draws + 1 } ∧
    (∀ k, k < 512 → u.2.storeByte .pstore (512 * idx + k) = r.bufByte (9 + k)) ∧
    ∀ a, a < 512 * idx ∨ 512 * idx + 512 ≤ a → u.2.storeByte .pstore a = r.storeByte .pstore a := by
  obtain ⟨c, hc⟩ := r.checkedFull_eq
  obtain ⟨a1, a2, a3, a4, -⟩ := finishWrite_spec ({ r with crc := c } : State) d (.memWrite .pstore idx) .pstore idx 0 0 (r.bufRange 9 512) (by simp)
  obtain ⟨e1, e2, e3, -⟩ := a4 h0
  rw [r.writeFull_physical d idx hm hr, hc]
  generalize finishWrite d 0 (({ r with crc := c } : State).writeSlot (.memWrite .pstore idx) .pstore idx 0 (r.bufRange 9 512)) = u at *
  have hv : u.2.vstore = r.vstore := a2 .vstore (by decide)
  exact ⟨e1, by rw [a1, hv, e2], fun k hk => (e3 k (by simpa using hk)).trans (State.getElem_bufRange _ _ _ _ _), a3⟩

/-! ## A full slot -/

/-- The state in which `FRM.SLOT512` has its verdict: framed, transmitted and read back (R147). -/
def State.readFull (s : State) (d : DriveId) : State := (s.sendFull d).readBack 8 516

theorem State.answer_sendFull (s : State) (d : DriveId) : (s.sendFull d).answer = s.answer := by
  obtain ⟨-, -, -, -, -, hf⟩ := s.sendFull_spec d
  unfold State.answer; rw [hf]

theorem State.slotFull_failed (s : State) (d : DriveId) (h : s.answer.st ≠ 0) :
    s.slotFull d = (.transceiverReadback, (s.readFull d).report .transceiverReadback d 0 0) ∧ s.slotFullClean d = false := by
  have hk : (s.sendFull d).readbackOk = false := by rw [State.readbackOk_eq, s.answer_sendFull]; exact decide_eq_false h
  exact ⟨by rw [State.slotFull, hk]; rfl, by rw [State.slotFullClean, hk]; rfl⟩

theorem State.slotFull_readBack (s : State) (d : DriveId) (h : s.answer.st = 0) :
    s.slotFull d = (s.readFull d).writeSector d ∧ s.slotFullClean d = (s.readFull d).writeMatches d := by
  have hk : (s.sendFull d).readbackOk = true := by rw [State.readbackOk_eq, s.answer_sendFull]; exact decide_eq_true h
  exact ⟨by rw [State.slotFull, hk]; rfl, by rw [State.slotFullClean, hk]; rfl⟩

/-- What is left of `s` once it has been framed, transmitted and read back: everything but `BUF[0..523]`, the register and the logs. -/
theorem State.readFull_spec (s : State) (d : DriveId) :
    let r := s.readFull d
    r = { s with buf := r.buf, crc := r.crc, calls := s.calls ++ [.transmit (s.fullFrames d) (s.drv d).bitLength, .readback 8 516],
                 answers := s.answers.tail, draws := s.draws + 1 } ∧
    (∀ a, 524 ≤ a → r.bufByte a = s.bufByte a) ∧
    (s.answer.keep = true → ∀ a, r.bufByte a = (s.sendFull d).bufByte a) ∧
    r.drv d = s.drv d ∧ ∀ half, r.resolve half d = s.resolve half d := by
  intro r
  obtain ⟨-, -, -, ho, -, hf⟩ := s.sendFull_spec d
  have hans := s.answer_sendFull d
  have hr : r = (s.sendFull d).readBack 8 516 := rfl
  generalize s.sendFull d = v at *
  obtain ⟨b1, b2, -, b4⟩ := v.readBack_spec 8 516
  rw [← hr] at b1 b2 b4
  clear_value r
  have hframe : r = { s with buf := r.buf, crc := r.crc, calls := s.calls ++ [.transmit (s.fullFrames d) (s.drv d).bitLength, .readback 8 516],
                             answers := s.answers.tail, draws := s.draws + 1 } := by
    rw [b4, hf]; simp
  have hd : r.drv d = s.drv d := by rw [hframe]; cases d <;> rfl
  exact ⟨hframe, fun a ha => (b1 a (by omega)).trans (ho a (by omega)),
    fun hk => State.bufByte_congr v r (b2 (by rw [hans]; exact hk)) (by rw [b4]), hd,
    fun half => State.resolve_congr s r half d hd (by rw [hframe])⟩

/-- Whether the write of `s` is refused does not depend on what has been framed and read back. -/
theorem State.writeStop_congr (s t : State) (half : Bool) (d : DriveId) (clean : Bool) (h : t.resolve half d = s.resolve half d) :
    t.writeStop half d clean = s.writeStop half d clean := by
  unfold State.writeStop; rw [h]

/-- R147's last line: a readback that answers OK is followed by `SEC.WR`, refused where that is. -/
theorem exec_frmSlot512_eq_secWr (s : State) (d : DriveId) (hd : s.params.hasDrive d = true) (hs : s.supported d = true)
    (hg : s.inp.writeGate = .released) (h0 : s.answer.st = 0) : exec (.frmSlot512 d) s = exec (.secWr d) (s.readFull d) := by
  obtain ⟨hf, -, -, -, hres⟩ := s.readFull_spec d
  obtain ⟨hw, hc⟩ := s.slotFull_readBack d h0
  have hp : (s.readFull d).params = s.params := by rw [hf]
  have hdr : (s.readFull d).params.hasDrive d = true := by rw [hp]; exact hd
  have hstop : (s.readFull d).writeStop ((s.readFull d).params.half d) d ((s.readFull d).writeMatches d)
      = s.writeStop (s.params.half d) d (s.slotFullClean d) := by
    rw [hc, hp]; exact State.writeStop_congr s _ _ d _ (hres _)
  cases hx : s.writeStop (s.params.half d) d (s.slotFullClean d) with
  | some x => rw [exec_frmSlot512_stops hd hs hg x hx, exec_secWr_stops _ d x hdr (hstop.trans hx)]
  | none => rw [exec_frmSlot512_goes hd hs hg hx, exec_secWr_goes _ d hdr (hstop.trans hx), hw]

/-- Everything `FRM.SLOT512` can leave of the state it has read back, where it is not refused. -/
theorem State.slotFull_path (s : State) (d : DriveId) (hs : ∀ x, s.resolve (s.params.half d) d = .stop x → s.slotFullClean d = false) :
    ∃ w, WritePath (s.params.half d) (s.slotFullClean d) d (s.readFull d) (s.slotFull d).2 w ∧ (s.answer.st ≠ 0 → w = []) := by
  obtain ⟨hf, -, -, -, hres⟩ := s.readFull_spec d
  have hp : (s.readFull d).params = s.params := by rw [hf]
  by_cases h0 : s.answer.st = 0
  · obtain ⟨hw, hc⟩ := s.slotFull_readBack d h0
    rw [hc] at hs
    rw [hw, hc, ← hp]
    obtain ⟨w, h⟩ := (s.readFull d).writeSector_path d fun x hx => hs x (by rwa [hp, hres] at hx)
    exact ⟨w, h, fun h1 => absurd h0 h1⟩
  · obtain ⟨hw, hc⟩ := s.slotFull_failed d h0
    rw [hw, hc]
    generalize s.readFull d = r
    exact ⟨[], .noStore _ _ d r r.crc _ (.inr ⟨.transceiverReadback, 0, rfl⟩), fun _ => rfl⟩

/-! ## The obligations -/

/-- Settles O41: the half `lba[0]` is one half write (`halfWritten`) to the target that R221 names with folding. -/
theorem halfSectorWrite : Obligations.HalfSectorWrite := by
  intro s d hd hh x h b idx at0 c hc1 hc2
  have h2 : h < 2 := lbaHalf_lt x
  have hm : s.halfMatches h = true := by
    rw [State.halfMatches_iff, halfBase_eq h h2]
    exact ⟨hc1, hc2⟩
  have hwm : s.writeMatches d = true := (s.writeMatches_half d hh).trans hm
  have hcrc : crcBytes s.params.crcPoly s.params.crcInit (s.bufRange (8 + 256 * h) 257) = c := rfl
  clear_value c
  have stops (r : Refusal) (hr : s.resolve true d = .stop r) : exec (.secWr d) s = .refused r :=
    exec_secWr_stops s d r hd (by rw [hh, hwm, s.writeStop_refused true d r hr])
  have goes (hr : ∀ r, s.resolve true d ≠ .stop r) :
      exec (.secWr d) s = .next ((s.writeHalf d h 0).2.returning (.status (s.withMedia d (s.writeHalf d h 0).1))) := by
    rw [exec_secWr_goes s d hd (by rw [hh]; exact s.writeStop_none true d _ hr), s.writeSector_half d hh]; rfl
  refine ⟨fun hr hi => ?_, fun hr hi => ?_, fun hr hv => ?_, fun hr hv => ?_⟩
  · have hres : s.resolve true d = .physical idx := s.resolve_ready true d hr hi
    have ok : ∀ r, s.resolve true d ≠ .stop r := fun r => by rw [hres]; nofun
    obtain ⟨-, -, hwritten⟩ := s.writeHalf_written d h 0 h2 fun r hr => absurd hr (ok r)
    obtain ⟨hf, hslot, hok, hfail⟩ := hwritten ((s.halfMatches_passes h h2).1 hm) idx hres
    rw [hcrc] at hf
    rw [goes ok, s.withMedia_of_ne d _ (by rw [hres]; nofun)]
    generalize s.writeHalf d h 0 = u at *
    refine ⟨_, rfl, congrArg (State.returning · _) hf, fun h0 => ?_, fun h0 => ?_⟩
    · obtain ⟨hst, hrep, hin, hout⟩ := hok h0
      refine ⟨fun k hk => (hin k hk).trans (congrArg s.bufByte (by omega)), hout, congrArg Returned.status hst, hrep⟩
    · obtain ⟨hst, hrep⟩ := hfail h0
      exact ⟨hslot, congrArg Returned.status hst, hrep⟩
  · exact stops _ (s.resolve_ready_past true d hr hi)
  · exact stops _ (s.resolve_virtual_half d hr hv)
  · have hres : s.resolve true d = .noMedia := s.resolve_noMedia true d hr hv
    have ok : ∀ r, s.resolve true d ≠ .stop r := fun r => by rw [hres]; nofun
    obtain ⟨-, hwritten, -⟩ := s.writeHalf_written d h 0 h2 fun r hr => absurd hr (ok r)
    obtain ⟨hst, hf⟩ := hwritten ((s.halfMatches_passes h h2).1 hm) hres
    rw [goes ok, hst, hf, s.withMedia_noMedia d hres, hcrc]
    rfl

/-- Settles O17: the first part is the framing, the readback and then `SEC.WR`; the second is what a write path can leave (`WritePath`). -/
theorem fullSlotCompletes : Obligations.FullSlotCompletes := by
  intro s d hd hs hg
  obtain ⟨-, -, -, ho, hframes, hsend⟩ := s.sendFull_spec d
  obtain ⟨hf, hout, -, hdrv, hres⟩ := s.readFull_spec d
  refine ⟨⟨s.sendFull d, s.readFull d, hsend, hframes, fun a ha => ho a (by omega), ?_, exec_frmSlot512_eq_secWr s d hd hs hg, fun h0 => ?_⟩,
    fun hstop => ?_, fun r hr hc => ?_⟩
  · rw [exec_xcvRb_released _ _ _ (by rw [hsend]; exact hg), State.readbackOk_eq, s.answer_sendFull]; rfl
  · obtain ⟨hw, hc⟩ := s.slotFull_failed d h0
    rw [exec_frmSlot512_goes hd hs hg (by rw [hc]; exact s.writeStop_mismatch _ d), hw, ← State.record_congr s (s.readFull d) d 0 _ _ hdrv]
    rfl
  · obtain ⟨w, hw, hnone⟩ := s.slotFull_path d hstop
    have hfail : s.answer.st ≠ 0 → (s.slotFull d).1 = .transceiverReadback ∧
        (s.slotFull d).2.reports = (s.readFull d).reports ++ [(s.readFull d).record d 0 .transceiverReadback 0] := fun h0 => by
      rw [(s.slotFull_failed d h0).1]; exact ⟨rfl, rfl⟩
    rw [exec_frmSlot512_goes hd hs hg (s.writeStop_goes _ d _ hstop)]
    generalize s.slotFull d = u at *
    generalize s.readFull d = r at *
    have hrec (code : Status) (st : Nat) : r.record d 0 code st = s.record d 0 code st := State.record_congr s r d 0 code st hdrv
    have hsb (sp : Space) (a : Nat) : r.storeByte sp a = s.storeByte sp a := by rw [hf]; cases sp <;> rfl
    have hreps : r.reports = s.reports := by rw [hf]
    have hpst : r.pstore = s.pstore := by rw [hf]
    have hvst : r.vstore = s.vstore := by rw [hf]
    obtain ⟨w1, w2, w3, w4, w5, w6, w7⟩ := hw
    simp only [hres, hrec, hsb, hreps, hpst, hvst] at w3 w4 w5 w6 w7 hfail
    refine ⟨u.2.returning (.status u.1), w, rfl, ?_, fun a ha => ?_, ?_, w2, w3, w4, w5, w6, w7, fun h0 => ?_⟩
    · rw [w1, hf]; rfl
    · have hb : u.2.bufByte a = r.bufByte a := by rw [w1]; rfl
      exact hb.trans (hout a (by omega))
    · show u.2.calls = _
      rw [w1, hf]
    · exact ⟨hnone h0, (hfail h0).2, congrArg Returned.status (hfail h0).1⟩
  · exact exec_frmSlot512_stops hd hs hg r (by rw [hc]; exact s.writeStop_refused _ d r hr)

/-- Settles O18: the data read back is the data framed, so it passes its test and its payload goes to the one slot. -/
theorem fullSlotLoopbackStoresThePayload : Obligations.FullSlotLoopbackStoresThePayload := by
  intro s d a w rest hd hh hs hg hr hi hans h0 hk hw0 x idx payload hc dc frames
  obtain rfl : s.answer = a := by unfold State.answer; rw [hans]
  have hfr : s.fullFrames d = frames := rfl
  clear_value frames
  have hphys : s.resolve false d = .physical idx := s.resolve_ready false d hr hi
  obtain ⟨-, -, -, ho, hframes, -⟩ := s.sendFull_spec d
  obtain ⟨hf, -, hkeep, -, hres⟩ := s.readFull_spec d
  obtain ⟨hw, hclean⟩ := s.slotFull_readBack d h0
  have hhalf : (s.readFull d).params.half d = false := by rw [hf]; exact hh
  have hmatch : (s.readFull d).fullMatches = true := by
    rw [← State.writeMatches_full _ d hhalf, ← hclean]
    exact s.slotFullClean_keep d hh h0 hk
  have hgo : s.writeStop (s.params.half d) d (s.slotFullClean d) = none := by
    rw [hh]; exact s.writeStop_none false d _ fun r => by rw [hphys]; nofun
  have hnext : (s.readFull d).answer = w := by unfold State.answer; rw [hf, hans]; rfl
  obtain ⟨hok, hu, hin, hout⟩ := (s.readFull d).writeFull_stores d idx hmatch ((hres false).trans hphys) (by rw [hnext]; exact hw0)
  rw [exec_frmSlot512_goes hd hs hg hgo, hw, State.writeSector_full _ d hhalf]
  have hb := hkeep hk
  generalize s.readFull d = r at *
  generalize r.writeFull d = u at *
  rw [hfr, hans] at hf
  have hu : u.2 = { s with buf := r.buf, crc := u.2.crc, pstore := u.2.pstore, answers := rest, draws := s.draws + 1 + 1,
                           calls := s.calls ++ [.transmit frames x.bitLength, .readback 8 516, .memWrite .pstore idx] } := by
    rw [hu, hf]; simp [x]
  have hub (k : Nat) : u.2.bufByte k = (s.sendFull d).bufByte k := by rw [← hb, hf, hu]; rfl
  refine ⟨u.2.returning (.status u.1), rfl, ?_, congrArg State.calls hu, fun k hk => ?_, fun b hb => ?_, by rw [State.returning_vstore, hu],
    by rw [State.returning_reports, hu], congrArg State.answers hu, congrArg Returned.status hok⟩
  · exact (State.bufRange_eq (s.sendFull d) u.2 0 524 fun k _ _ => hub k).trans (hframes.trans hfr)
  · exact (hin k hk).trans ((hb _).trans (ho _ (by omega)))
  · exact (hout b hb).trans (by rw [hf]; rfl)

end Sys2Proof.Machine
end

section
/-!
PROOFS. Step 6 with a half-sector pair (spec/41_framer.md, R150 to R152, R156 to R158). What each half ends with is `verifyHalf_spec`; here the state
between the halves is tied to the first one's (`betweenHalves_spec`), so that the pair is read line by line as R150 writes it.
-/

namespace Sys2Proof.Machine

/-! ## `FRM.SLOT256` as an operation -/

theorem exec_frmSlot256_unsupported (s : State) (d : DriveId) (hd : s.params.hasDrive d = true) (hs : s.supported d = false) :
    exec (.frmSlot256 d) s = .next ((s.report .unsupportedFormat d 0 0).returning (.status .unsupportedFormat)) := by
  have hr : s.runSlot256 d = .done .unsupportedFormat (s.report .unsupportedFormat d 0 0) := by simp [State.runSlot256, State.unsupportedSlot, hs]
  show execFrmSlot256 d s = _
  rw [execFrmSlot256, onDrive_has d s _ hd, hr]

theorem exec_frmSlot256_odd (s : State) (d : DriveId) (hd : s.params.hasDrive d = true) (hs : s.supported d = true)
    (ho : (s.drv d).sector.toNat % 2 = 1) : exec (.frmSlot256 d) s = .next (s.returning (.status .ok)) := by
  have hr : s.runSlot256 d = .done .ok s := by simp [State.runSlot256, hs, (s.drv d).oddSector_iff.2 ho]
  show execFrmSlot256 d s = _
  rw [execFrmSlot256, onDrive_has d s _ hd, hr]

theorem exec_frmSlot256_stops (s : State) (d : DriveId) (r : Refusal) (hd : s.params.hasDrive d = true) (hs : s.supported d = true)
    (he : (s.drv d).sector.toNat % 2 = 0) (hg : s.inp.writeGate = .released) (hr : s.resolve true d = .stop r) (hc : s.slotPairClean d = true) :
    exec (.frmSlot256 d) s = .refused r := by
  have ho : (s.drv d).oddSector = false := by rw [Bool.eq_false_iff, ne_eq, Drive.oddSector_iff]; omega
  have hx : s.runSlot256 d = .stop r := by simp [State.runSlot256, hs, ho, hg, hc, s.writeStop_refused true d r hr]
  show execFrmSlot256 d s = _
  rw [execFrmSlot256, onDrive_has d s _ hd, hx]

/-! ## The pair, half by half -/

/-- What the first half ends with: the state after its readback and `HALF.WR` (R150). -/
def State.afterFirst (s : State) (d : DriveId) : Status × State := (s.sendFirst d).verifyHalf d 0

/-- What the second half ends with, before the tail is restored (R150). -/
def State.afterSecond (s : State) (d : DriveId) : Status × State := (s.betweenHalves d).verifyHalf d 1

theorem State.slotPair_eq (s : State) (d : DriveId) :
    s.slotPair d = (if (s.afterFirst d).1 = .ok then (s.afterSecond d).1 else (s.afterFirst d).1, (s.afterSecond d).2.restoreTail) := rfl

/-- Neither half is refused where the pair is not. -/
theorem State.slotPairClean_false {s : State} {d : DriveId} (h : s.slotPairClean d = false) :
    (s.sendFirst d).verifyHalfClean 0 = false ∧ (s.betweenHalves d).verifyHalfClean 1 = false := Bool.or_eq_false_iff.1 h

theorem State.sendFirst_answer (s : State) (d : DriveId) : (s.sendFirst d).answer = s.answer := by
  obtain ⟨-, -, -, -, -, -, -, hf⟩ := s.sendFirst_spec d
  unfold State.answer; rw [hf]

theorem State.sendFirst_resolve (s : State) (d : DriveId) : (s.sendFirst d).resolve true d = s.resolve true d :=
  State.resolve_congr _ _ true d ((Moves.sendFirst s d).drv d) (Moves.sendFirst s d).inp

theorem State.betweenHalves_resolve (s : State) (d : DriveId) : (s.betweenHalves d).resolve true d = s.resolve true d :=
  State.resolve_congr _ _ true d ((Moves.betweenHalves s d).drv d) (Moves.betweenHalves s d).inp

/-- Everything half `h` of a pair can do once it is transmitted in `v`, its data field standing at `base` and its slot being `target`: what it ends with, its
frame, `BUF` and the slot, and its calls (R150, R156). -/
structure HalfEnd (v : State) (d : DriveId) (h base : Nat) (target : Target) (u : Status × State) : Prop where
  ended : (v.readBack base 260).halfVerified u.2 d h v.readbackOk u.1
  outside : ∀ a, a < base ∨ base + 260 ≤ a → u.2.bufByte a = v.bufByte a
  kept : v.answer.keep = true → ∀ a, u.2.bufByte a = v.bufByte a
  slot : ∀ idx, target = .physical idx → ∀ a, a < 512 * idx ∨ 512 * idx + 512 ≤ a → u.2.storeByte .pstore a = v.storeByte .pstore a
  untouched : (∀ idx, target ≠ .physical idx) → u.2.pstore = v.pstore
  calls : ∃ w, u.2.calls = v.calls ++ .readback base 260 :: w ∧ u.2.answers = v.answers.drop (1 + w.length) ∧
    u.2.draws = v.draws + (1 + w.length) ∧ w.length ≤ 1 ∧ ((target = .noMedia ∨ v.answer.st ≠ 0) → w = [])

/-- Both halves of a pair that is not refused, each to the target of the drive. -/
theorem State.pair_halves (s : State) (d : DriveId) (hstop : ∀ r, s.resolve true d = .stop r → s.slotPairClean d = false) :
    HalfEnd (s.sendFirst d) d 0 8 (s.resolve true d) (s.afterFirst d) ∧
    HalfEnd (s.betweenHalves d) d 1 264 (s.resolve true d) (s.afterSecond d) := by
  obtain ⟨a1, -, a3, a4, a5, a6, a7⟩ := (s.sendFirst d).verifyHalf_spec d 0 (by decide) fun r hr =>
    (State.slotPairClean_false (hstop r ((s.sendFirst_resolve d).symm.trans hr))).1
  obtain ⟨b1, -, b3, b4, b5, b6, b7⟩ := (s.betweenHalves d).verifyHalf_spec d 1 (by decide) fun r hr =>
    (State.slotPairClean_false (hstop r ((s.betweenHalves_resolve d).symm.trans hr))).2
  rw [s.sendFirst_resolve d] at a5 a6 a7
  rw [s.betweenHalves_resolve d] at b5 b6 b7
  exact ⟨⟨a1, a3, a4, a5, a6, a7⟩, b1, b3, b4, b5, b6, b7⟩

/-- Half `h` of a pair, transmitted in `v` with its data field at `base`, read back clean and with the buffer kept, goes to slot `idx` by the one call that
`p` answers; what it leaves is `u` (R150, R156). -/
structure HalfStored (v : State) (h base idx : Nat) (p : Answer) (rest : List Answer) (u : Status × State) : Prop where
  frame : u.2 = { v with crc := u.2.crc, pstore := u.2.pstore, reports := u.2.reports, draws := u.2.draws, answers := rest,
                         calls := v.calls ++ [.readback base 260, .halfWrite idx h] }
  stored : p.st = 0 → u.1 = .ok ∧ u.2.reports = v.reports ∧
    (∀ k, k < 256 → u.2.storeByte .pstore (512 * idx + 256 * h + k) = v.bufByte (9 + 256 * h + k)) ∧
    ∀ x, x < 512 * idx + 256 * h ∨ 512 * idx + 256 * h + 256 ≤ x → u.2.storeByte .pstore x = v.storeByte .pstore x

theorem HalfStored.bufByte {v : State} {h base idx : Nat} {p : Answer} {rest : List Answer} {u : Status × State}
    (hu : HalfStored v h base idx p rest u) (a : Nat) : u.2.bufByte a = v.bufByte a := by rw [hu.frame]; rfl

/-- Between the halves (R150, R151): the splice is undone and the second half framed and transmitted, whatever the first half ended with, provided
the first half touched no byte of `BUF` outside its data field. -/
theorem State.betweenHalves_spec (s : State) (d : DriveId) (ht : ∀ a, a < 8 ∨ 268 ≤ a → (s.afterFirst d).2.bufByte a = (s.sendFirst d).bufByte a) :
    let u := (s.afterFirst d).2
    let v := s.betweenHalves d
    let c := crcBytes s.params.crcPoly s.params.crcInit (0xFB#8 :: s.bufRange 265 256)
    v.bufByte 264 = 0xFB#8 ∧ v.bufByte 521 = hi8 c ∧ v.bufByte 522 = lo8 c ∧
    (∀ k, k < 9 → v.bufByte (527 + k) = u.bufByte (256 + k)) ∧
    (∀ a, 265 ≤ a → a < 521 → v.bufByte a = s.bufByte a) ∧
    (∀ a, a < 256 ∨ (268 ≤ a ∧ a < 521) ∨ (524 ≤ a ∧ a < 527) ∨ 536 ≤ a → v.bufByte a = u.bufByte a) ∧
    v.bufRange 256 268 = s.halfFrames d 1 ∧
    v = { u with buf := v.buf, crc := v.crc, calls := u.calls ++ [.transmit (s.halfFrames d 1) (s.drv d).bitLength] } := by
  intro u v c
  have hm : Moves s u := (Moves.sendFirst s d).trans (Moves.verifyHalf _ d 0 (by decide))
  obtain ⟨-, -, -, -, hsaved, hfirst, -⟩ := s.sendFirst_spec d
  have hv : v = u.restoreSplice.sendSecond d := rfl
  change ∀ a, a < 8 ∨ 268 ≤ a → u.bufByte a = _ at ht
  clear_value u v
  obtain ⟨hcopy, hkept⟩ := u.copyBuf_spec 265 524 3
  have hframe : u.restoreSplice = { u with buf := u.restoreSplice.buf } := rfl
  have hpay (a : Nat) (h1 : 265 ≤ a) (h2 : a < 521) : u.restoreSplice.bufByte a = s.bufByte a := by
    rcases Nat.lt_or_ge a 268 with h3 | h3
    · obtain ⟨k, rfl⟩ := Nat.exists_eq_add_of_le h1
      exact (hcopy k (by omega)).trans ((ht _ (by omega)).trans (hsaved k (by omega)))
    · exact (hkept a (by omega)).trans ((ht a (by omega)).trans (hfirst a (by omega) (by omega)))
  change ∀ a, _ → u.restoreSplice.bufByte a = _ at hkept
  generalize u.restoreSplice = t at *
  have hd : t.drv d = s.drv d := by rw [hframe]; exact hm.drv d
  have hp : t.params = s.params := by rw [hframe]; exact hm.params
  obtain ⟨b1, b2, b3, b4, b5, b6, b7⟩ := State.sendSecond_spec s t d hd hp (State.bufRange_eq s t 265 256 fun a h1 h2 => hpay a h1 (by omega))
  rw [← hv] at b1 b2 b3 b4 b5 b6 b7
  exact ⟨b1, b2, b3, fun k hk => (b4 k hk).trans (hkept _ (by omega)), fun a h1 h2 => (b5 a (by omega)).trans (hpay a h1 h2),
    fun a ha => (b5 a (by omega)).trans (hkept a (by omega)), b6, by rw [b7, hframe]⟩

/-- Both readbacks leave the buffer: the second half's header and trailer are undone, and the payload is what it was (R151, R152, R158). -/
theorem State.slotPair_keeps_payload (s : State) (d : DriveId)
    (h0 : ∀ a, (s.afterFirst d).2.bufByte a = (s.sendFirst d).bufByte a)
    (h1 : ∀ a, (s.afterSecond d).2.bufByte a = (s.betweenHalves d).bufByte a) :
    (s.slotPair d).2.bufRange 9 512 = s.bufRange 9 512 ∧
    bufSameOutside s (s.slotPair d).2 (fun k => k ≤ 8 ∨ (521 ≤ k ∧ k ≤ 535)) := by
  obtain ⟨-, -, -, -, -, hfirst, -⟩ := s.sendFirst_spec d
  obtain ⟨-, -, -, htail, hpay, hsame, -⟩ := s.betweenHalves_spec d fun a _ => h0 a
  obtain ⟨hcopy, hkept⟩ := (s.afterSecond d).2.copyBuf_spec 256 527 9
  have hout (a : Nat) (ha : 9 ≤ a) (hb : a < 521 ∨ 536 ≤ a) : (s.slotPair d).2.bufByte a = s.bufByte a := by
    rw [State.slotPair_eq]
    by_cases h : 256 ≤ a ∧ a < 265
    · obtain ⟨k, rfl⟩ := Nat.exists_eq_add_of_le h.1
      exact (hcopy k (by omega)).trans ((h1 _).trans ((htail k (by omega)).trans ((h0 _).trans (hfirst _ (by omega) (by omega)))))
    · refine (hkept a (by omega)).trans ((h1 a).trans ?_)
      by_cases h265 : 265 ≤ a ∧ a < 521
      · exact hpay a h265.1 h265.2
      · exact (hsame a (by omega)).trans ((h0 a).trans (hfirst a (by omega) (by omega)))
  exact ⟨State.bufRange_eq _ _ _ _ fun a ha hb => hout a ha (by omega), fun a ha => hout a (by omega) (by omega)⟩

/-- A half whose mark, payload and CRC stand as they were framed passes its test (R146). -/
theorem State.halfMatches_framed (s t : State) (h : Nat) (h2 : h < 2) (hp : t.params = s.params) (hm : t.bufByte (8 + 256 * h) = 0xFB#8)
    (hpay : ∀ a, 9 + 256 * h ≤ a → a < 265 + 256 * h → t.bufByte a = s.bufByte a)
    (hc1 : t.bufByte (265 + 256 * h) = hi8 (crcBytes s.params.crcPoly s.params.crcInit (0xFB#8 :: s.bufRange (9 + 256 * h) 256)))
    (hc2 : t.bufByte (266 + 256 * h) = lo8 (crcBytes s.params.crcPoly s.params.crcInit (0xFB#8 :: s.bufRange (9 + 256 * h) 256))) :
    t.halfMatches h = true := by
  have hr : t.bufRange (8 + 256 * h) 257 = 0xFB#8 :: s.bufRange (9 + 256 * h) 256 := by
    rw [State.bufRange_succ, hm, show 8 + 256 * h + 1 = 9 + 256 * h by omega, State.bufRange_eq s t _ _ fun a ha hb => hpay a ha (by omega)]
  rw [State.halfMatches_passes t h h2, hr, hp]
  exact ⟨hc1, hc2⟩

/-- The first half under a readback that keeps the buffer passes its test and goes to the slot. -/
theorem State.firstHalf_stored (s : State) (d : DriveId) (idx : Nat) (a p : Answer) (rest : List Answer) (hr : s.resolve true d = .physical idx)
    (hans : s.answers = a :: p :: rest) (h0 : a.st = 0) (hk : a.keep = true) :
    HalfStored (s.sendFirst d) 0 8 idx p rest (s.afterFirst d) := by
  obtain ⟨-, h8, h265, h266, -, hfirst, -, hsend⟩ := s.sendFirst_spec d
  have hclean : (s.sendFirst d).halfMatches 0 = true :=
    s.halfMatches_framed _ 0 (by decide) (by rw [hsend]) h8 (fun x hx hy => hfirst x hx (by omega)) h265 h266
  obtain ⟨hf, hst⟩ := (s.sendFirst d).verifyHalf_clean d 0 idx (by decide) a p rest (by rw [hsend]; exact hans) h0 hk hclean
    ((s.sendFirst_resolve d).trans hr)
  exact ⟨hf, hst⟩

/-- The second half under such a readback, once the first one has gone to the slot. -/
theorem State.secondHalf_stored (s : State) (d : DriveId) (idx : Nat) (p b q : Answer) (rest : List Answer) (hr : s.resolve true d = .physical idx)
    (hfirst : HalfStored (s.sendFirst d) 0 8 idx p (b :: q :: rest) (s.afterFirst d)) (h0 : b.st = 0) (hk : b.keep = true) :
    HalfStored (s.betweenHalves d) 1 264 idx q rest (s.afterSecond d) := by
  obtain ⟨h264, h521, h522, -, hpay, -, -, hsend⟩ := s.betweenHalves_spec d fun x _ => hfirst.bufByte x
  have hans : (s.betweenHalves d).answers = b :: q :: rest := by rw [hsend, hfirst.frame]
  have hclean : (s.betweenHalves d).halfMatches 1 = true :=
    s.halfMatches_framed _ 1 (by decide) (Moves.betweenHalves s d).params h264 hpay h521 h522
  obtain ⟨hf, hst⟩ := (s.betweenHalves d).verifyHalf_clean d 1 idx (by decide) b q rest hans h0 hk hclean ((s.betweenHalves_resolve d).trans hr)
  exact ⟨hf, hst⟩

/-- Both halves in the slot, their two writes succeeding: it holds the payload, no other byte has changed, and nothing is reported (R158). -/
theorem State.pair_stored {s : State} {d : DriveId} {idx : Nat} {p q : Answer} {rest rest1 : List Answer}
    (first : HalfStored (s.sendFirst d) 0 8 idx p rest (s.afterFirst d))
    (second : HalfStored (s.betweenHalves d) 1 264 idx q rest1 (s.afterSecond d)) (hp : p.st = 0) (hq : q.st = 0) :
    (s.afterFirst d).1 = .ok ∧ (s.afterSecond d).1 = .ok ∧ (s.afterSecond d).2.reports = s.reports ∧
    (∀ k, k < 512 → (s.afterSecond d).2.storeByte .pstore (512 * idx + k) = s.bufByte (9 + k)) ∧
    ∀ k, k < 512 * idx ∨ 512 * idx + 512 ≤ k → (s.afterSecond d).2.storeByte .pstore k = s.storeByte .pstore k := by
  obtain ⟨-, -, -, -, -, hfirst, -, hsend⟩ := s.sendFirst_spec d
  obtain ⟨-, -, -, -, hpay, -, -, hsend1⟩ := s.betweenHalves_spec d fun x _ => first.bufByte x
  obtain ⟨st0, rep0, in0, out0⟩ := first.stored hp
  obtain ⟨st1, rep1, in1, out1⟩ := second.stored hq
  generalize s.sendFirst d = v0, s.afterFirst d = r0, s.betweenHalves d = v1, s.afterSecond d = r1 at *
  have hv0 (k : Nat) : v0.storeByte .pstore k = s.storeByte .pstore k := by rw [hsend]; rfl
  have hv1 (k : Nat) : v1.storeByte .pstore k = r0.2.storeByte .pstore k := by rw [hsend1]; rfl
  refine ⟨st0, st1, ?_, fun k hk => ?_, fun k hk => ?_⟩
  · rw [rep1, hsend1, rep0, hsend]
  · rcases Nat.lt_or_ge k 256 with h | h
    · exact (out1 _ (by omega)).trans ((hv1 _).trans ((in0 k h).trans (hfirst _ (by omega) (by omega))))
    · obtain ⟨j, rfl⟩ := Nat.exists_eq_add_of_le h
      rw [← Nat.add_assoc, ← Nat.add_assoc]
      exact (in1 j (by omega)).trans (hpay _ (by omega) (by omega))
  · exact (out1 k (by omega)).trans ((hv1 k).trans ((out0 k (by omega)).trans (hv0 k)))

/-! ## The obligations -/

/-- Settles O19: both composites test the format first, and the pair the parity of the index; WRITE_GATE is not looked at before. -/
theorem slotsThatTransmitNothing : Obligations.SlotsThatTransmitNothing := fun s d hd =>
  ⟨fun hs => ⟨exec_frmSlot512_unsupported s d hd hs, exec_frmSlot256_unsupported s d hd hs⟩, exec_frmSlot256_odd s d hd⟩

/-- Settles O20, line by line: each half by what it ends with, the second one framed over the restored splice. -/
theorem halfPairCompletes : Obligations.HalfPairCompletes := by
  intro s d hd hs he hg
  refine ⟨fun hstop => ?_, fun r hr hc => exec_frmSlot256_stops s d r hd hs he hg hr hc⟩
  rw [exec_frmSlot256_even s d hd hs he hg hstop, State.slotPair_eq]
  obtain ⟨first, second⟩ := s.pair_halves d hstop
  obtain ⟨-, -, -, -, hsaved, hfirst, hframes, hsend⟩ := s.sendFirst_spec d
  obtain ⟨-, -, -, htail, -, hsame, hframes1, hsend1⟩ := s.betweenHalves_spec d first.outside
  have hg0 : (s.sendFirst d).inp.writeGate = .released := by rw [hsend]; exact hg
  have hg1 : (s.betweenHalves d).inp.writeGate = .released := by rw [(Moves.betweenHalves s d).inp]; exact hg
  generalize s.sendFirst d = v0, s.afterFirst d = r0, s.betweenHalves d = v1, s.afterSecond d = r1 at *
  obtain ⟨hcopy, hkept⟩ := r1.2.copyBuf_spec 256 527 9
  have hst (a : Nat) : v0.storeByte .pstore a = s.storeByte .pstore a := by rw [hsend]; rfl
  have hst1 (a : Nat) : v1.storeByte .pstore a = r0.2.storeByte .pstore a := by rw [hsend1]; rfl
  refine ⟨v0, v0.readBack 8 260, r0.2, v1, v1.readBack 264 260, r1.2, _, r0.1, r1.1, v0.readbackOk, v1.readbackOk, rfl,
    hsend, hframes, State.bufRange_copied s v0 524 265 3 hsaved, fun a ha => hfirst a (by omega) (by omega),
    exec_xcvRb_released 8#16 260#16 v0 hg0, first.ended,
    hsend1, hframes1, State.bufRange_copied r0.2 v1 527 256 9 htail, fun a ha => hsame a (by omega),
    exec_xcvRb_released 264#16 260#16 v1 hg1, second.ended, rfl, ?_, fun a ha => hkept a (by omega), fun idx hi a ha => ?_, fun hn => ?_⟩
  · exact (State.bufRange_copied r1.2 r1.2.restoreTail 256 527 9 hcopy).trans
      (State.bufRange_eq v1 r1.2 527 9 fun a ha _ => second.outside a (by omega))
  · exact (second.slot idx hi a ha).trans ((hst1 a).trans ((first.slot idx hi a ha).trans (hst a)))
  · calc r1.2.pstore = v1.pstore := second.untouched hn
      _ = r0.2.pstore := by rw [hsend1]
      _ = v0.pstore := first.untouched hn
      _ = s.pstore := by rw [hsend]

/-- What the pair has called, and where its second readback stands in the answers, whatever the halves end with. -/
theorem State.slotPair_calls (s : State) (d : DriveId) (hstop : ∀ r, s.resolve true d = .stop r → s.slotPairClean d = false) :
    ∃ w0 w1 : List Call,
      (s.slotPair d).2.calls = s.calls ++ [.transmit (s.halfFrames d 0) (s.drv d).bitLength, .readback 8 260] ++ w0
        ++ [.transmit (s.halfFrames d 1) (s.drv d).bitLength, .readback 264 260] ++ w1 ∧
      w0.length ≤ 1 ∧ ((s.resolve true d = .noMedia ∨ s.answer.st ≠ 0) → w0 = []) ∧
      (s.betweenHalves d).answer = s.answerAfter (1 + w0.length) := by
  obtain ⟨first, second⟩ := s.pair_halves d hstop
  obtain ⟨-, -, -, -, -, -, -, hsend⟩ := s.sendFirst_spec d
  obtain ⟨-, -, -, -, -, -, -, hsend1⟩ := s.betweenHalves_spec d first.outside
  obtain ⟨w0, hc0, ha0, hd0, hlen, hnone⟩ := first.calls
  obtain ⟨w1, hc1, -⟩ := second.calls
  rw [s.sendFirst_answer] at hnone
  rw [State.slotPair_eq, State.restoreTail, State.copyBuf_calls, hc1]
  generalize s.sendFirst d = v0, s.afterFirst d = r0, s.betweenHalves d = v1 at *
  refine ⟨w0, w1, ?_, hlen, hnone, ?_⟩
  · rw [hsend1, hc0, hsend]; simp
  · exact State.answerAfter_add s v1 (1 + w0.length) 0 (by rw [hsend1, ha0, hsend]) (by rw [hsend1, hd0, hsend])

/-- Settles O21: a readback that leaves the buffer lets the restores undo the splice; what it reads back is what was framed, so on a READY drive both
halves go to the slot. -/
theorem halfPairSpliceIsIdempotent : Obligations.HalfPairSpliceIsIdempotent := by
  intro s d hd hs he hg f0 f1
  refine ⟨fun hstop hkeep => ?_, ?_⟩
  · obtain ⟨first, second⟩ := s.pair_halves d hstop
    obtain ⟨w0, w1, hcalls, hlen, hnone, hans⟩ := s.slotPair_calls d hstop
    have hkeeps := fun hk : (s.betweenHalves d).answer.keep = true =>
      s.slotPair_keeps_payload d (first.kept (by rw [s.sendFirst_answer]; exact hkeep)) (second.kept hk)
    rw [hans] at hkeeps
    rw [exec_frmSlot256_even s d hd hs he hg hstop]
    clear first second
    generalize s.slotPair d = u at *
    exact ⟨_, w0, w1, rfl, hcalls, hlen, hnone, hkeeps⟩
  · intro a b p q rest idx hr hi hans ha hak hb hbk
    have hphys : s.resolve true d = .physical idx := s.resolve_ready true d hr hi
    have hgo := exec_frmSlot256_even s d hd hs he hg fun r hr => by rw [hphys] at hr; cases hr
    have first := s.firstHalf_stored d idx a p (b :: q :: rest) hphys hans ha hak
    have second := s.secondHalf_stored d idx p b q rest hphys first hb hbk
    obtain ⟨-, -, -, -, -, -, -, hsend⟩ := s.sendFirst_spec d
    obtain ⟨-, -, -, -, -, -, -, hsend1⟩ := s.betweenHalves_spec d fun x _ => first.bufByte x
    obtain ⟨hpayload, hsame⟩ := s.slotPair_keeps_payload d first.bufByte second.bufByte
    have hcalls : (s.afterSecond d).2.calls
        = s.calls ++ [f0, .readback 8 260, .halfWrite idx 0, f1, .readback 264 260, .halfWrite idx 1] := by
      rw [second.frame, hsend1, first.frame, hsend]; simp [f0, f1]
    have hanswers : (s.afterSecond d).2.answers = rest := by rw [second.frame]
    have hstored := State.pair_stored first second
    clear first second hsend hsend1
    rw [hgo]
    refine ⟨_, rfl, hpayload, hsame, ?_⟩
    rw [State.slotPair_eq]
    clear hpayload hsame hgo
    generalize s.afterFirst d = r0, s.afterSecond d = r1 at *
    refine ⟨hcalls, hanswers, fun hp hq => ?_⟩
    obtain ⟨st0, st1, hrep, hin, hout⟩ := hstored hp hq
    exact ⟨hin, hout, hrep, congrArg Returned.status ((if_pos st0).trans st1)⟩

end Sys2Proof.Machine
end

section
/-!
PROOFS. The position state machine (spec/42_position.md, R170 to R179). An edge adds its own step (`ownStep`) while the 16-bit range holds it; a
sequence of edges is read from its end, so that each claim about it is one more edge after a shorter sequence.
-/

namespace Sys2Proof.Machine

/-! ## One edge (R170, R171, R177) -/

theorem ownStep_released (f : Byte) (hv : edgeValid f = true) (hd : edgeStepDir f = false) : ownStep f = 1 := by simp [ownStep, hv, hd]

theorem ownStep_asserted (f : Byte) (hv : edgeValid f = true) (hd : edgeStepDir f = true) : ownStep f = -1 := by simp [ownStep, hv, hd]

theorem steppedDelta_eq_add_ownStep (f : Byte) (delta : Word16) (hv : edgeValid f = true) :
    steppedDelta (edgeStepDir f) delta = delta.toInt + ownStep f := by
  cases hd : edgeStepDir f with
  | true => rw [ownStep_asserted f hv hd]; rfl
  | false => rw [ownStep_released f hv hd]; rfl

/-- A valid edge inside the range adds its own step and sets the flag (R170). -/
theorem execStpEdge_counts (f : Byte) (s : State) (hv : edgeValid f = true) (hlo : -32768 ≤ s.pendingTrackDelta.toInt + ownStep f)
    (hhi : s.pendingTrackDelta.toInt + ownStep f ≤ 32767) :
    ∃ v : Word16, v.toInt = s.pendingTrackDelta.toInt + ownStep f ∧
      execStpEdge f s = .next { s with pendingTrackDelta := v, trackChangedFlag := true } := by
  have hfits := (fitsSigned16_iff _).2 ⟨hlo, hhi⟩
  rw [← steppedDelta_eq_add_ownStep f _ hv] at hfits ⊢
  exact ⟨_, toInt_ofInt_of_fits _ hfits, execStpEdge_valid f s hv hfits⟩

/-- A valid edge past either end of the range is the fault (R177). -/
theorem execStpEdge_overflow (f : Byte) (s : State) (hv : edgeValid f = true)
    (hout : s.pendingTrackDelta.toInt + ownStep f < -32768 ∨ 32767 < s.pendingTrackDelta.toInt + ownStep f) :
    execStpEdge f s = .fault .deltaOverflow := by
  refine execStpEdge_past f s hv (Bool.eq_false_iff.2 fun hfits => ?_)
  rw [steppedDelta_eq_add_ownStep f _ hv, fitsSigned16_iff] at hfits
  omega

/-- An edge whose own step stays inside the range raises no fault, bouncing or not. -/
theorem execStpEdge_isNext (f : Byte) (s : State) (hlo : -32768 ≤ s.pendingTrackDelta.toInt + ownStep f)
    (hhi : s.pendingTrackDelta.toInt + ownStep f ≤ 32767) : ∃ t, execStpEdge f s = .next t := by
  cases hv : edgeValid f with
  | false => exact ⟨s, execStpEdge_invalid f s hv⟩
  | true =>
    obtain ⟨v, -, hx⟩ := execStpEdge_counts f s hv hlo hhi
    exact ⟨_, hx⟩

/-- What an edge leaves of the rest: the flag set if the edge was valid, and every other variable (R170, R171). -/
theorem execStpEdge_frame (f : Byte) (s t : State) (h : execStpEdge f s = .next t) :
    t = { s with pendingTrackDelta := t.pendingTrackDelta, trackChangedFlag := s.trackChangedFlag || edgeValid f } := by
  rcases execStpEdge_next f s t h with ⟨hv, rfl⟩ | ⟨hv, -, hframe⟩
  · rw [hv, Bool.or_false]
  · rw [hv, Bool.or_true]; exact hframe

/-! ## A sequence of edges (R179) -/

/-- The run of a sequence of edges: a fault ends it. -/
def State.afterEdges (s : State) (fs : List Byte) : Outcome State :=
  fs.foldl (fun (o : Outcome State) f => andThen o (exec (.stpEdge f))) (.next s)

/-- The valid edges with STEPDIR released. -/
def upCount (fs : List Byte) : Nat := fs.countP fun f => f.getLsbD 1 && !f.getLsbD 0

/-- The valid edges with STEPDIR asserted. -/
def downCount (fs : List Byte) : Nat := fs.countP fun f => f.getLsbD 1 && f.getLsbD 0

theorem upCount_append (fs : List Byte) (f : Byte) :
    upCount (fs ++ [f]) = upCount fs + if edgeValid f && !edgeStepDir f then 1 else 0 := by
  rw [upCount, List.countP_append, List.countP_singleton]; rfl

theorem downCount_append (fs : List Byte) (f : Byte) :
    downCount (fs ++ [f]) = downCount fs + if edgeValid f && edgeStepDir f then 1 else 0 := by
  rw [downCount, List.countP_append, List.countP_singleton]; rfl

/-- One more edge: neither count falls, and they differ by its own step more. -/
theorem counts_append (fs : List Byte) (f : Byte) :
    (upCount (fs ++ [f]) : Int) - downCount (fs ++ [f]) = upCount fs - downCount fs + ownStep f ∧
    upCount fs ≤ upCount (fs ++ [f]) ∧ downCount fs ≤ downCount (fs ++ [f]) := by
  rw [upCount_append, downCount_append, ownStep]
  cases edgeValid f with
  | false => simp
  | true => cases edgeStepDir f <;> simp <;> omega

theorem counts_pos_append (fs : List Byte) (f : Byte) :
    decide (0 < upCount (fs ++ [f]) + downCount (fs ++ [f])) = (decide (0 < upCount fs + downCount fs) || edgeValid f) := by
  rw [upCount_append, downCount_append]
  cases edgeValid f with
  | false => simp
  | true => cases edgeStepDir f <;> simp

theorem State.afterEdges_append (s : State) (fs : List Byte) (f : Byte) :
    s.afterEdges (fs ++ [f]) = andThen (s.afterEdges fs) (execStpEdge f) := by
  rw [State.afterEdges, List.foldl_append]; rfl

theorem State.afterEdges_append_next (s t : State) (fs : List Byte) (f : Byte) :
    s.afterEdges (fs ++ [f]) = .next t ↔ ∃ u, s.afterEdges fs = .next u ∧ execStpEdge f u = .next t := by
  rw [State.afterEdges_append, andThen_next]

/-- A sequence that raises no fault adds the steps in less the steps out. -/
theorem State.afterEdges_delta (s : State) (fs : List Byte) (t : State) (h : s.afterEdges fs = .next t) :
    t.pendingTrackDelta.toInt = s.pendingTrackDelta.toInt + upCount fs - downCount fs := by
  induction fs using List.reverseRecOn generalizing t with
  | nil => cases h; simp [upCount, downCount]
  | append_singleton fs f ih =>
    obtain ⟨u, hu, ht⟩ := (s.afterEdges_append_next t fs f).1 h
    have hbefore := ih u hu
    have hedge := execStpEdge_delta f u t ht
    have hcounts := (counts_append fs f).1
    omega

/-- A sequence that raises no fault sets the flag if one of its edges was valid, and writes nothing but the delta and the flag. -/
theorem State.afterEdges_frame (s : State) (fs : List Byte) (t : State) (h : s.afterEdges fs = .next t) :
    t = { s with pendingTrackDelta := t.pendingTrackDelta,
                 trackChangedFlag := s.trackChangedFlag || decide (0 < upCount fs + downCount fs) } := by
  induction fs using List.reverseRecOn generalizing t with
  | nil => cases h; simp [upCount, downCount]
  | append_singleton fs f ih =>
    obtain ⟨u, hu, ht⟩ := (s.afterEdges_append_next t fs f).1 h
    have hedge := execStpEdge_frame f u t ht
    rw [ih u hu] at hedge
    rw [counts_pos_append, ← Bool.or_assoc]
    exact hedge

/-- A sequence whose counts cannot leave the range raises no fault: every edge of it finds room for its own step. -/
theorem State.afterEdges_isNext (s : State) (fs : List Byte) (hhi : s.pendingTrackDelta.toInt + upCount fs ≤ 32767)
    (hlo : -32768 ≤ s.pendingTrackDelta.toInt - downCount fs) : ∃ t, s.afterEdges fs = .next t := by
  induction fs using List.reverseRecOn with
  | nil => exact ⟨s, rfl⟩
  | append_singleton fs f ih =>
    obtain ⟨hcounts, hup, hdown⟩ := counts_append fs f
    obtain ⟨u, hu⟩ := ih (by omega) (by omega)
    have hbefore := s.afterEdges_delta fs u hu
    obtain ⟨t, ht⟩ := execStpEdge_isNext f u (by omega) (by omega)
    exact ⟨t, (s.afterEdges_append_next t fs f).2 ⟨u, hu, ht⟩⟩

/-! ## The take (R173) -/

theorem execPosTake_set (s : State) (h : s.trackChangedFlag = true) : execPosTake s = .next { s with
    pendingTrackDelta := 0#16, trackChangedFlag := false, result := .take true s.pendingTrackDelta } := by
  rw [execPosTake, State.deltaCleared, State.takenDelta, if_pos h, if_pos h, h]; rfl

theorem execPosTake_clear (s : State) (h : s.trackChangedFlag = false) :
    execPosTake s = .next (s.returning (.take false 0#16)) := by
  have hn : ¬ s.trackChangedFlag = true := Bool.eq_false_iff.1 h
  rw [execPosTake, State.deltaCleared, State.takenDelta, if_neg hn, if_neg hn, h]

/-! ## The move (R175, R176) -/

theorem execPosApply_has (d : DriveId) (delta : Word16) (s : State) (h : s.params.hasDrive d = true) :
    execPosApply d delta s = .next (s.applyDelta d delta).returningOk := onDrive_has d s _ h

/-- The move with its latches written out: TRACK0 by the new track, DISK_CHANGE by the medium (R176). -/
theorem State.applyDelta_eq (s : State) (d : DriveId) (delta : Word16) :
    s.applyDelta d delta = { s.setDrv d { s.drv d with track := s.newTrack d delta } with
      out := { s.out with
        track0 := if s.newTrack d delta = 0#16 then .asserted else .released
        diskChange := if (s.drv d).img.flags.ready = true ∨ s.vdisk d = true then .released else .asserted }
      draws := (s.applyDelta d delta).draws } := by
  rw [← track0Level_eq, ← diskChangeAtStep_eq]; rfl

/-- With a legal `numTrack` the move draws no free value: the new track is the clamped one (R175). -/
theorem State.applyDelta_legal (s : State) (d : DriveId) (delta : Word16) (h1 : 1 ≤ (s.drv d).img.numTrack.toNat)
    (h2 : (s.drv d).img.numTrack.toNat ≤ 32767) :
    (s.applyDelta d delta).draws = s.draws ∧
    (s.newTrack d delta).toInt = max 0 (min ((s.drv d).img.numTrack.toNat - 1 : Int) ((s.drv d).track.toInt + delta.toInt)) := by
  obtain ⟨hclamp, hfits⟩ := clampedTrack_legal (s.drv d) delta h1 h2
  refine ⟨if_pos hfits, ?_⟩
  rw [State.newTrack, if_pos hfits, toInt_ofInt_of_fits _ hfits, hclamp]

/-! ## The obligations -/

/-- Settles O23, by induction on the sequence from its end. -/
theorem netDelta : Obligations.NetDelta := fun s fs =>
  ⟨fun t h => by
    have hframe := s.afterEdges_frame fs t h
    have hflag := congrArg State.trackChangedFlag hframe
    exact ⟨s.afterEdges_delta fs t h, hflag, by rw [hflag]; exact hframe⟩,
  s.afterEdges_isNext fs⟩

/-- Settles O26: the new track is the clamped position, or the free value where that fits no 16-bit word. -/
theorem applyClampsTheTrack : Obligations.ApplyClampsTheTrack := fun s d delta hd =>
  ⟨s.newTrack d delta, (s.applyDelta d delta).draws,
    (execPosApply_has d delta s hd).trans (by rw [State.applyDelta_eq]; rfl), s.applyDelta_legal d delta⟩

/-- Settles O22, case by case of the edge: its own step is 0, 1 or -1, and fits or does not. -/
theorem stepEdgeCountsOne : Obligations.StepEdgeCountsOne := by
  intro s f
  have hlo := s.pendingTrackDelta.le_toInt
  have hhi := s.pendingTrackDelta.toInt_lt
  refine ⟨execStpEdge_invalid f s, fun hv hd hlt => ?_, fun hv hd hlt => ?_, fun hv hd he => ?_, fun hv hd he => ?_⟩
  · have hcounts := execStpEdge_counts f s hv
    rw [ownStep_released f hv hd] at hcounts
    exact hcounts (by omega) (by omega)
  · have hcounts := execStpEdge_counts f s hv
    rw [ownStep_asserted f hv hd] at hcounts
    exact hcounts (by omega) (by omega)
  · exact execStpEdge_overflow f s hv (.inr (by rw [ownStep_released f hv hd]; omega))
  · exact execStpEdge_overflow f s hv (.inl (by rw [ownStep_asserted f hv hd]; omega))

/-- Settles O24, by the two values of the flag. -/
theorem takeReadsAndClears : Obligations.TakeReadsAndClears := fun s => ⟨execPosTake_set s, execPosTake_clear s⟩

end Sys2Proof.Machine
end

section
/-!
PROOFS. The select handler and the sequencer (spec/43_sync.md, R190 to R211). Each sequencer operation is written out once for a drive that may run
(it exists and the other drive is Deselected); inside a session that is the one Selected drive, so the main loop's steps are those equations
(`State.session.step_operation`).
-/

namespace Sys2Proof.Machine

/-! ## The select lines (R191, R192) -/

theorem resolveTwoDrive_iff (l : Byte) :
    (resolveTwoDrive l = .drive0 ↔ selectA l = true ∧ selectB l = false) ∧
    (resolveTwoDrive l = .drive1 ↔ selectA l = false ∧ selectB l = true) := by
  unfold resolveTwoDrive
  cases selectA l <;> cases selectB l <;> decide

theorem resolveSingleDrive_iff (l : Byte) :
    (resolveSingleDrive l = .drive0 ↔ selectA l = true ∧ motorA l = true) ∧ resolveSingleDrive l ≠ .drive1 := by
  unfold resolveSingleDrive
  cases selectA l <;> cases motorA l <;> decide

/-! ## The dispatch (R194) -/

theorem exec_seqDisp_enabled (s : State) (d : DriveId) (hd : s.params.hasDrive d = true) (h : s.dispatchEnabled d = true) :
    exec (.seqDisp d) s = .next (s.setStep d .enter).returningOk :=
  (onDrive_has d s _ hd).trans (by rw [if_pos h])

theorem exec_seqDisp_waits (s : State) (d : DriveId) (hd : s.params.hasDrive d = true) (h : ¬ s.dispatchEnabled d = true) :
    exec (.seqDisp d) s = .next s :=
  (onDrive_has d s _ hd).trans (by rw [if_neg h])

/-- Every operation that R199 gives a position is a sequencer operation of that drive. -/
theorem exec_eq_onSequencer (i : Instr) (d : DriveId) (x : SeqStep) (s : State) (hi : Instr.position i = some (d, x)) :
    ∃ k, exec i s = onSequencer d s k := by
  cases i <;> cases hi <;> exact ⟨_, rfl⟩

/-! ## What the operations write, as the rules write it -/

theorem ImageFlags.acknowledged_eq (f : ImageFlags) (v : Bool) :
    f.acknowledged v = { f with changed := f.changed && !(f.ready || v) } := by
  rcases f with ⟨c, r, w⟩
  cases c <;> cases r <;> cases v <;> rfl

theorem sideOf_eq (l : Level) : sideOf l = if l = .asserted then 1#1 else 0#1 := by cases l <;> rfl

/-- The new block address is the integer of R203 from every track that is not negative. -/
theorem State.newLba_toNat (s : State) (d : DriveId) (h : 0 ≤ (s.drv d).track.toInt) : ((s.newLba d).toNat : Int) = lbaValue (s.drv d) := by
  obtain ⟨hlo, hhi, hfits⟩ := lbaValue_bound (s.drv d) h
  rw [State.newLba, if_pos hfits, BitVec.toNat_ofInt, Int.emod_eq_of_lt hlo (by omega), Int.toNat_of_nonneg hlo]

/-- A position inside the geometry has its block address inside the image (R76). -/
theorem lbaValue_lt_image (x : Drive) (ht : x.track.toInt < x.img.numTrack.toNat) (hs : x.sector.toNat < x.img.numSec.toNat) :
    lbaValue x < x.img.numTrack.toNat * 2 * x.img.numSec.toNat := by
  have hside := x.side.isLt
  have hheads : x.track.toInt * 2 + x.side.toNat + 1 ≤ x.img.numTrack.toNat * 2 := by omega
  calc lbaValue x < (x.track.toInt * 2 + x.side.toNat) * x.img.numSec.toNat + x.img.numSec.toNat := by rw [lbaValue]; omega
    _ = (x.track.toInt * 2 + x.side.toNat + 1) * x.img.numSec.toNat := by ring
    _ ≤ x.img.numTrack.toNat * 2 * x.img.numSec.toNat := Int.mul_le_mul_of_nonneg_right hheads (Int.natCast_nonneg _)

/-- The next sector index below 255 (R206). -/
theorem State.newSector_toNat (s : State) (d : DriveId) (h : (s.drv d).sector.toNat < 255) :
    (s.newSector d).toNat = if (s.drv d).sector.toNat + 1 = (s.drv d).img.numSec.toNat then 0 else (s.drv d).sector.toNat + 1 := by
  unfold State.newSector
  split
  · rfl
  · rw [if_pos (by omega), BitVec.toNat_ofNat, Nat.mod_eq_of_lt (by omega)]

/-! ## The read path as an operation (R220) -/

theorem State.readStop_none (s : State) (d : DriveId) (h : ∀ r, s.resolve (s.params.half d) d ≠ .stop r) : s.readStop d = none := by
  unfold State.readStop
  split
  · rename_i r hr; exact absurd hr (h r)
  · rfl

theorem State.readStop_some (s : State) (d : DriveId) (r : Refusal) (h : s.resolve (s.params.half d) d = .stop r) : s.readStop d = some r := by
  rw [State.readStop, h]

theorem exec_secRd_goes (s : State) (d : DriveId) (hd : s.params.hasDrive d = true) (h : s.readStop d = none) :
    exec (.secRd d) s = .next ((s.readSector d).2.returning (.status (s.readSector d).1)) :=
  (onDrive_has d s _ hd).trans (by rw [h])

theorem exec_secRd_stops (s : State) (d : DriveId) (r : Refusal) (hd : s.params.hasDrive d = true) (h : s.readStop d = some r) :
    exec (.secRd d) s = .refused r :=
  (onDrive_has d s _ hd).trans (by rw [h])

theorem stepAfterFetch_eq (xmit : Bool) (st : Status) :
    stepAfterFetch xmit st = if Returned.status st = .status .ok ∨ xmit = true then .xfer else .next := by
  simp only [stepAfterFetch, Returned.status.injEq]

/-! ## Step 6 in either mode (R205) -/

/-- The composite that `SEQ.XFER d` runs. -/
def slotOperation (half : Bool) (d : DriveId) : Instr := if half = true then .frmSlot256 d else .frmSlot512 d

/-- A write of the composite is reached with data that passes its CRC test. -/
def State.slotClean (s : State) (d : DriveId) : Bool := if s.params.half d = true then s.slotPairClean d else s.slotFullClean d

/-- The composite transmits: the format is supported, and in half-sector mode the index is even (R148, R150). -/
def State.transmits (s : State) (d : DriveId) : Prop :=
  s.supported d = true ∧ (s.params.half d = true → (s.drv d).sector.toNat % 2 = 0)

theorem State.runSlot_half (s : State) (d : DriveId) (h : s.params.half d = true) : s.runSlot d = s.runSlot256 d := if_pos h

theorem State.runSlot_full (s : State) (d : DriveId) (h : s.params.half d = false) : s.runSlot d = s.runSlot512 d :=
  if_neg (Bool.eq_false_iff.1 h)

theorem State.slotClean_half (s : State) (d : DriveId) (h : s.params.half d = true) : s.slotClean d = s.slotPairClean d := if_pos h

theorem State.slotClean_full (s : State) (d : DriveId) (h : s.params.half d = false) : s.slotClean d = s.slotFullClean d :=
  if_neg (Bool.eq_false_iff.1 h)

/-- A composite that does not transmit ends at once (R148, R150). -/
theorem State.runSlot_silent (s : State) (d : DriveId) (h : ¬ s.transmits d) : ∃ st t, s.runSlot d = .done st t := by
  cases hs : s.supported d with
  | false => cases hh : s.params.half d <;> simp [State.runSlot, State.runSlot256, State.runSlot512, hs, hh]
  | true =>
    obtain ⟨hh, ho⟩ : s.params.half d = true ∧ (s.drv d).oddSector = true := by
      simpa [State.transmits, hs, Drive.oddSector_iff] using h
    simp [s.runSlot_half d hh, State.runSlot256, hs, ho]

/-- A composite that transmits waits for WRITE_GATE (R155), and then is refused or ends, as its write path is. -/
theorem State.runSlot_transmits (s : State) (d : DriveId) (h : s.transmits d) :
    (s.inp.writeGate = .asserted → s.runSlot d = .waits) ∧
    (s.inp.writeGate = .released →
      (s.writeStop (s.params.half d) d (s.slotClean d) = none → ∃ st t, s.runSlot d = .done st t) ∧
      ∀ r, s.writeStop (s.params.half d) d (s.slotClean d) = some r → s.runSlot d = .stop r) := by
  obtain ⟨hs, he⟩ := h
  cases hh : s.params.half d with
  | false =>
    rw [s.slotClean_full d hh, s.runSlot_full d hh, State.runSlot512, if_pos hs, hh]
    refine ⟨fun hg => if_pos hg, fun hg => ?_⟩
    rw [if_neg (by rw [hg]; decide)]
    exact ⟨fun hw => ⟨_, _, by rw [hw]⟩, fun r hw => by rw [hw]⟩
  | true =>
    have ho : ¬ (s.drv d).oddSector = true := by rw [Drive.oddSector_iff, he hh]; decide
    rw [s.slotClean_half d hh, s.runSlot_half d hh, State.runSlot256, if_pos hs, if_neg ho]
    refine ⟨fun hg => if_pos hg, fun hg => ?_⟩
    rw [if_neg (by rw [hg]; decide)]
    exact ⟨fun hw => ⟨_, _, by rw [hw]⟩, fun r hw => by rw [hw]⟩

/-- What the operation `i` makes of the end of its step 6: it begins its wait, is refused, or returns the status. -/
def SlotEnd.outcome (s : State) (i : Instr) : SlotEnd → Outcome State
  | .waits => .next (s.waiting i)
  | .stop r => .refused r
  | .done st t => .next (t.returning (.status st))

theorem exec_slotOperation (s : State) (d : DriveId) (hd : s.params.hasDrive d = true) :
    exec (slotOperation (s.params.half d) d) s = (s.runSlot d).outcome s (slotOperation (s.params.half d) d) := by
  cases hh : s.params.half d with
  | false => rw [s.runSlot_full d hh]; exact onDrive_has d s _ hd
  | true => rw [s.runSlot_half d hh]; exact onDrive_has d s _ hd

/-! ## The sequencer operations of a drive that may run -/

section
variable {s : State} {d : DriveId} (hd : s.params.hasDrive d = true) (ho : (s.other d).step = .idle)
include hd ho

theorem exec_seqEnter_legal (hl : (s.drv d).img.geometryLoaded = true) (hg : geometryLegal (s.params.half d) (s.drv d).img = true) :
    exec (.seqEnter d) s = .next (s.enterActions d).returningOk :=
  (onSequencer_has d s _ hd ho).trans (by rw [if_pos hl, if_pos hg])

theorem exec_seqEnter_illegal (hl : (s.drv d).img.geometryLoaded = true) (hg : ¬ geometryLegal (s.params.half d) (s.drv d).img = true) :
    exec (.seqEnter d) s = .refused .geometryOutsideModel :=
  (onSequencer_has d s _ hd ho).trans (by rw [if_pos hl, if_neg hg])

theorem exec_seqEnter_unloaded (hl : ¬ (s.drv d).img.geometryLoaded = true) : exec (.seqEnter d) s = .refused .geometryNeverLoaded :=
  (onSequencer_has d s _ hd ho).trans (by rw [if_neg hl])

theorem exec_seqChk : exec (.seqChk d) s = .next (s.setStep d (if s.selected d then .side else .exit)).returningOk :=
  onSequencer_has d s _ hd ho

theorem exec_seqSide : exec (.seqSide d) s = .next (s.setDrv d { s.drv d with side := sideOf s.inp.side, step := .pos }).returningOk :=
  onSequencer_has d s _ hd ho

theorem exec_seqPos : exec (.seqPos d) s = .next ((s.consumeDelta d).setStep d .lba).returningOk :=
  onSequencer_has d s _ hd ho

theorem exec_seqLba : exec (.seqLba d) s = .next (s.computeLba d).returningOk :=
  onSequencer_has d s _ hd ho

theorem exec_seqFetch_goes (h : s.readStop d = none) : exec (.seqFetch d) s =
    .next ((s.readSector d).2.setStep d (stepAfterFetch s.params.xmitAfterReadFail (s.readSector d).1)).returningOk :=
  (onSequencer_has d s _ hd ho).trans (by rw [h])

theorem exec_seqFetch_stops (r : Refusal) (h : s.readStop d = some r) : exec (.seqFetch d) s = .refused r :=
  (onSequencer_has d s _ hd ho).trans (by rw [h])

theorem exec_seqXfer_done (st : Status) (t : State) (h : s.runSlot d = .done st t) :
    exec (.seqXfer d) s = .next (t.setStep d .next).returningOk :=
  (onSequencer_has d s _ hd ho).trans (by rw [h])

theorem exec_seqXfer_waits (h : s.runSlot d = .waits) : exec (.seqXfer d) s = .next (s.waiting (.seqXfer d)) :=
  (onSequencer_has d s _ hd ho).trans (by rw [h])

theorem exec_seqXfer_stops (r : Refusal) (h : s.runSlot d = .stop r) : exec (.seqXfer d) s = .refused r :=
  (onSequencer_has d s _ hd ho).trans (by rw [h])

theorem exec_seqNext : exec (.seqNext d) s = .next (s.advanceSector d).returningOk :=
  onSequencer_has d s _ hd ho

theorem exec_seqExit : exec (.seqExit d) s = .next (s.exitActions d).returningOk :=
  onSequencer_has d s _ hd ho

end

/-! ## The step each operation leaves its drive at (R199) -/

@[simp] theorem State.enterActions_step (s : State) (d : DriveId) : ((s.enterActions d).drv d).step = .chk :=
  congrArg Drive.step (s.drv_setDrv d ((s.drv d).entered (s.vdisk d)))

@[simp] theorem State.computeLba_step (s : State) (d : DriveId) : ((s.computeLba d).drv d).step = .fetch :=
  congrArg Drive.step (s.drv_setDrv d { s.drv d with lba := s.newLba d, step := .fetch })

@[simp] theorem State.advanceSector_step (s : State) (d : DriveId) : ((s.advanceSector d).drv d).step = .chk :=
  congrArg Drive.step (s.drv_setDrv d { s.drv d with sector := s.newSector d, step := .chk })

@[simp] theorem State.exitActions_step (s : State) (d : DriveId) : ((s.exitActions d).drv d).step = .idle :=
  congrArg Drive.step (s.drv_setStep d .idle)

section
variable {s : State} {d : DriveId} (hd : s.params.hasDrive d = true) (ho : (s.other d).step = .idle)
include hd ho

theorem exec_seqEnter_next (t : State) (h : exec (.seqEnter d) s = .next t) : (t.drv d).step = .chk := by
  by_cases hl : (s.drv d).img.geometryLoaded = true
  · by_cases hg : geometryLegal (s.params.half d) (s.drv d).img = true
    · cases (exec_seqEnter_legal hd ho hl hg).symm.trans h; exact s.enterActions_step d
    · cases (exec_seqEnter_illegal hd ho hl hg).symm.trans h
  · cases (exec_seqEnter_unloaded hd ho hl).symm.trans h

theorem exec_seqFetch_next (t : State) (h : exec (.seqFetch d) s = .next t) : (t.drv d).step = .xfer ∨ (t.drv d).step = .next := by
  cases hr : s.readStop d with
  | none =>
    cases (exec_seqFetch_goes hd ho hr).symm.trans h
    simp only [State.returningOk_drv, State.drv_setStep, stepAfterFetch]
    split <;> simp
  | some r => cases (exec_seqFetch_stops hd ho r hr).symm.trans h

theorem exec_seqXfer_next (t : State) (hb : t.busyWait = none) (h : exec (.seqXfer d) s = .next t) : (t.drv d).step = .next := by
  cases hr : s.runSlot d with
  | waits => cases (exec_seqXfer_waits hd ho hr).symm.trans h; cases hb
  | stop r => cases (exec_seqXfer_stops hd ho r hr).symm.trans h
  | done st u => cases (exec_seqXfer_done hd ho st u hr).symm.trans h; simp

end

/-! ## The main loop inside a session -/

/-- Inside a session the drive that is not at IDLE exists, and the other one is Deselected (R44). -/
theorem State.session.mayRun {s : State} (hs : s.session) {d : DriveId} (h : (s.drv d).step ≠ .idle) :
    s.params.hasDrive d = true ∧ (s.other d).step = .idle :=
  ⟨hs.present d h, ((s.oneSelected_iff d).1 hs.oneSelected).resolve_left h⟩

/-- Every position but IDLE has an operation (R199). -/
theorem SeqStep.operation_isSome (x : SeqStep) (d : DriveId) (h : x ≠ .idle) : ∃ i, x.operation d = some i := by
  cases x with
  | idle => exact absurd rfl h
  | _ => exact ⟨_, rfl⟩

/-- The main loop runs the operation of the position of the one Selected drive (R199). -/
theorem State.mainLoopNext_selected (s : State) (d : DriveId) (i : Instr) (ho : (s.other d).step = .idle)
    (hi : (s.drv d).step.operation d = some i) : s.mainLoopNext = some i := by
  unfold State.mainLoopNext
  cases d with
  | drive0 => rw [show s.drv0.step.operation .drive0 = some i from hi]
  | drive1 =>
    rw [show s.drv0.step.operation .drive0 = none by rw [show s.drv0.step = .idle from ho]; rfl,
      show s.drv1.step.operation .drive1 = some i from hi]

section
variable {s : State} {d : DriveId} (hs : s.session) (ht : s.trace = []) (hb : s.busyWait = none)
include hs ht hb

/-- With no event given and no busy-wait a step of a session is the operation of the Selected drive's position, and that drive may run. -/
theorem State.session.step_operation {x : SeqStep} {i : Instr} (hp : (s.drv d).step = x) (hi : x.operation d = some i) :
    s.params.hasDrive d = true ∧ (s.other d).step = .idle ∧ step s = exec i s := by
  subst hp
  obtain ⟨hd, ho⟩ := hs.mayRun fun h => by rw [h] at hi; cases hi
  exact ⟨hd, ho, step_of_mainLoopNext s i hb ht (s.mainLoopNext_selected d i ho hi)⟩

theorem State.session.step_next (hp : (s.drv d).step = .next) : step s = .next (s.advanceSector d).returningOk := by
  obtain ⟨hd, ho, hstep⟩ := hs.step_operation ht hb hp rfl
  exact hstep.trans (exec_seqNext hd ho)

/-- The check after a deselect leaves the loop (R200). -/
theorem State.session.step_chk_deselected (hp : (s.drv d).step = .chk) (hsel : s.selected d = false) :
    step s = .next (s.setStep d .exit).returningOk := by
  obtain ⟨hd, ho, hstep⟩ := hs.step_operation ht hb hp rfl
  rw [hstep, exec_seqChk hd ho, if_neg (Bool.eq_false_iff.1 hsel)]

theorem State.session.step_exit (hp : (s.drv d).step = .exit) : step s = .next (s.exitActions d).returningOk := by
  obtain ⟨hd, ho, hstep⟩ := hs.step_operation ht hb hp rfl
  exact hstep.trans (exec_seqExit hd ho)

end

/-! ## The obligations -/

/-- Settles O33: the integer of R203 fits the register from every track that is not negative. -/
theorem lbaIsTheChsAddress : Obligations.LbaIsTheChsAddress := by
  intro s d hd ho x
  refine ⟨s.newLba d, (s.computeLba d).draws, exec_seqLba hd ho, fun h => ⟨?_, s.newLba_toNat d h, fun ht hs => ?_⟩⟩
  · exact if_pos (lbaValue_bound x h).2.2
  · have hval := s.newLba_toNat d h
    have hlt := lbaValue_lt_image x ht hs
    exact_mod_cast hval ▸ hlt

/-- Settles O35: both operations end as step 6 does (`State.runSlot`), and step 6 is split by whether it transmits. -/
theorem transferRunsTheSlot : Obligations.TransferRunsTheSlot := by
  intro s d hd ho slot clean transmits
  have hslot : exec slot s = (s.runSlot d).outcome s slot := exec_slotOperation s d hd
  refine ⟨fun hg hstop => ?_, fun hg ht => ?_, fun r hg ht hr hc => ?_⟩
  · have hend : ∃ st t, s.runSlot d = .done st t := by
      by_cases ht : transmits
      · exact ((s.runSlot_transmits d ht).2 (hg ht)).1 (s.writeStop_goes _ d _ fun r hr => hstop r ht hr)
      · exact s.runSlot_silent d ht
    obtain ⟨st, t, hrun⟩ := hend
    exact ⟨t.returning (.status st), by rw [hslot, hrun]; rfl, exec_seqXfer_done hd ho st t hrun⟩
  · have hrun := (s.runSlot_transmits d ht).1 hg
    exact ⟨exec_seqXfer_waits hd ho hrun, by rw [hslot, hrun]; rfl⟩
  · have hrun := ((s.runSlot_transmits d ht).2 hg).2 r (by rw [show s.slotClean d = true from hc]; exact s.writeStop_refused _ d r hr)
    exact ⟨exec_seqXfer_stops hd ho r hrun, by rw [hslot, hrun]; rfl⟩

/-- Settles O36: the step is the operation of the position, and each operation leaves its drive at the next position. -/
theorem wiredLoopOrder : Obligations.WiredLoopOrder := by
  intro s d hs htr hb hx
  obtain ⟨hd, ho⟩ := hs.mayRun hx
  have hstep (i : Instr) (hi : (s.drv d).step.operation d = some i) : step s = exec i s :=
    let ⟨_, _, h⟩ := hs.step_operation htr hb rfl hi; h
  obtain ⟨j, hj⟩ := SeqStep.operation_isSome _ d hx
  refine ⟨hstep, ⟨j, hj, SeqStep.position_operation _ d j hj⟩, fun t ht hw => ?_⟩
  have hrun {x : SeqStep} (hp : (s.drv d).step = x) {i : Instr} (hi : x.operation d = some i) : exec i s = .next t :=
    (hstep i (hp ▸ hi)).symm.trans ht
  cases hp : (s.drv d).step with
  | idle => exact absurd hp hx
  | enter => exact exec_seqEnter_next hd ho t (hrun hp rfl)
  | chk =>
    cases (exec_seqChk hd ho).symm.trans (hrun hp rfl)
    cases hsel : s.selected d <;> simp
  | side => cases (exec_seqSide hd ho).symm.trans (hrun hp rfl); simp
  | pos => cases (exec_seqPos hd ho).symm.trans (hrun hp rfl); simp
  | lba => cases (exec_seqLba hd ho).symm.trans (hrun hp rfl); exact s.computeLba_step d
  | fetch => exact exec_seqFetch_next hd ho t (hrun hp rfl)
  | xfer => exact exec_seqXfer_next hd ho t hw (hrun hp rfl)
  | next => cases (exec_seqNext hd ho).symm.trans (hrun hp rfl); exact s.advanceSector_step d
  | exit => cases (exec_seqExit hd ho).symm.trans (hrun hp rfl); exact s.exitActions_step d

/-- Settles O37: NEXT, then CHK with the selector away, then EXIT; each step keeps the session, so the next one is the main loop's too. -/
theorem deselectEndsTheSession : Obligations.DeselectEndsTheSession := by
  intro s d hs htr hb hp hsel
  obtain ⟨-, -, -, keeps⟩ := orderedStepsKeepTheSession
  have hnext := hs.step_next htr hb hp
  obtain ⟨hst, htt⟩ := keeps s _ hs htr hnext
  have hpt := s.advanceSector_step d
  have hchk := hst.step_chk_deselected htt hb hpt hsel
  obtain ⟨hsu, htu⟩ := keeps _ _ hst htt hchk
  have hpu := congrArg Drive.step ((s.advanceSector d).returningOk.drv_setStep d .exit)
  have hexit := hsu.step_exit htu hb hpu
  exact ⟨_, _, _, hnext, hchk, hexit, hpt, hpu, State.exitActions_step _ d, rfl, rfl, rfl, rfl, rfl, rfl, rfl⟩

/-- Settles O27, topology by topology. -/
theorem selectResolvesTheLines : Obligations.SelectResolvesTheLines := by
  intro s l
  refine ⟨resolveLines s.params.topology l, rfl, fun ht => ?_, fun ht => ?_⟩ <;> rw [ht]
  · exact resolveTwoDrive_iff l
  · exact resolveSingleDrive_iff l

/-- Settles O28: the dispatch has one test, and every operation of the loop looks at the other drive first. -/
theorem dispatchSelectsTheNamedDrive : Obligations.DispatchSelectsTheNamedDrive := by
  intro s d hd
  refine ⟨fun h0 h1 hsel => ?_, fun h => ?_, fun ho i hi => ?_⟩
  · exact exec_seqDisp_enabled s d hd ((s.dispatchEnabled_iff d).2 ⟨h0, h1, hsel⟩)
  · refine exec_seqDisp_waits s d hd fun he => ?_
    obtain ⟨h0, h1, hsel⟩ := (s.dispatchEnabled_iff d).1 he
    rcases h with h | h | h
    · exact h h0
    · exact h h1
    · exact absurd (hsel.symm.trans h) (by decide)
  · obtain ⟨x, hx⟩ : ∃ x, Instr.position i = some (d, x) := by
      revert i
      simp [Instr.position]
    obtain ⟨k, hk⟩ := exec_eq_onSequencer i d x s hx
    rw [hk, onSequencer_other d s k hd ho]

/-- Settles O29, by the two tests of R211. -/
theorem enterActions : Obligations.EnterActions := by
  intro s d hd ho x f legal
  have hlegal := geometryLegal_iff (s.params.half d) x.img
  refine ⟨fun hl hg => ?_, fun hl hg => exec_seqEnter_illegal hd ho hl (mt hlegal.1 hg),
    fun hl => exec_seqEnter_unloaded hd ho (Bool.eq_false_iff.1 hl)⟩
  rw [exec_seqEnter_legal hd ho hl (hlegal.2 hg), ← ImageFlags.acknowledged_eq]
  rfl

/-- Settles O30: the two operations write what their equations say. -/
theorem checkAndExit : Obligations.CheckAndExit := by
  refine ⟨fun d => ⟨rfl, rfl⟩, Drive.run_iff, fun s d hd ho => ⟨?_, exec_seqExit hd ho⟩⟩
  rw [exec_seqChk hd ho, State.setStep]
  simp only [State.selected_iff]
  rfl

/-- Settles O31, with the bound on `sector` that every `SEQ.NEXT` keeps. -/
theorem sideAndNext : Obligations.SideAndNext := by
  intro s d hd ho
  refine ⟨?_, s.newSector d, (s.advanceSector d).draws, exec_seqNext hd ho, fun h => ⟨if_pos (by omega), s.newSector_toNat d h⟩,
    s.newSector_lt d⟩
  rw [exec_seqSide hd ho, sideOf_eq]
  rfl

/-- Settles O32, by the two values of the flag. -/
theorem positionStepTakesThenApplies : Obligations.PositionStepTakesThenApplies := by
  intro s d hd ho
  refine ⟨fun hf => ⟨_, _, execPosTake_set s hf, execPosApply_has d _ _ hd, ?_⟩, fun hf => ?_⟩
  · rw [exec_seqPos hd ho, State.consumeDelta, if_pos hf, State.deltaCleared, State.takenDelta, if_pos hf, if_pos hf]
    rfl
  · rw [exec_seqPos hd ho, State.consumeDelta, if_neg (Bool.eq_false_iff.1 hf)]
    rfl

/-- Settles O34: both operations are refused together, and both read the sector. -/
theorem fetchChoosesTheStep : Obligations.FetchChoosesTheStep := by
  intro s d hd ho
  refine ⟨fun h => ?_, fun r hr => ?_⟩
  · have hgo := s.readStop_none d h
    refine ⟨_, exec_secRd_goes s d hd hgo, ?_⟩
    rw [exec_seqFetch_goes hd ho hgo, stepAfterFetch_eq]
    rfl
  · have hstop := s.readStop_some d r hr
    exact ⟨exec_seqFetch_stops hd ho r hstop, exec_secRd_stops s d r hd hstop⟩

end Sys2Proof.Machine
end

section
/-!
PROOFS. The read path and the write path of a full sector (spec/44_storage.md, R220 to R229). What `SEC.RD` makes of one slot, and what `SEC.WR` of a full
sector makes of one, is said once for either store; a statement about a target then only names the store and the address. A mismatch ends `SEC.WR` before
any target is named.
-/

namespace Sys2Proof.Machine

/-! ## The read path, one equation per target (R220, R221) -/

theorem State.readSector_physical (s : State) (d : DriveId) (idx : Nat) (hr : s.resolve (s.params.half d) d = .physical idx) :
    s.readSector d = finishRead d (s.readSlot .pstore idx) := by rw [State.readSector, hr]

theorem State.readSector_virtual (s : State) (d : DriveId) (v : Nat) (hr : s.resolve (s.params.half d) d = .virtual v) :
    s.readSector d = finishRead d (s.readSlot .vstore v) := by rw [State.readSector, hr]

theorem State.readSector_noMedia (s : State) (d : DriveId) (hr : s.resolve (s.params.half d) d = .noMedia) :
    s.readSector d = (.noMedia, s) := by rw [State.readSector, hr]

/-- `SEC.RD` of one slot of either store (R220, R222): the slot's bytes in the payload region, or one report. -/
theorem exec_secRd_slot (s : State) (d : DriveId) (sp : Space) (address : Nat) (hd : s.params.hasDrive d = true)
    (hstop : s.readStop d = none) (hr : s.readSector d = finishRead d (s.readSlot sp address)) :
    ∃ u : State, exec (.secRd d) s = .next u ∧
      u = { s with buf := u.buf, reports := u.reports, calls := s.calls ++ [.memRead sp address], result := u.result,
                   answers := s.answers.tail, draws := s.draws + 1 } ∧
      bufSameOutside s u (fun a => 9 ≤ a ∧ a < 521) ∧
      (s.answer.st = 0 → u.bufRange 9 512 = s.slotBytes sp address ∧ u.result = .status .ok ∧ u.reports = s.reports) ∧
      (s.answer.st ≠ 0 → u.result = .status .storageReadError ∧ u.reports = s.reports ++ [s.record d 0 .storageReadError s.answer.st]) := by
  obtain ⟨hframe, hout, hok, hfail⟩ := finishRead_spec s d sp address
  rw [← hr] at hframe hout hok hfail
  refine ⟨_, exec_secRd_goes s d hd hstop, congrArg (State.returning · _) hframe, fun a ha => hout a (by omega), fun h0 => ?_, fun h0 => ?_⟩
  · obtain ⟨hst, hrep, hslot⟩ := hok h0
    exact ⟨hslot, congrArg Returned.status hst, hrep⟩
  · obtain ⟨hst, hrep⟩ := hfail h0
    exact ⟨congrArg Returned.status hst, hrep⟩

/-! ## The write path of a full sector (R225) -/

/-- Data that passed its test goes to the slot its target names, in either store (R225, R227). -/
theorem State.writeFull_target (s : State) (d : DriveId) (sp : Space) (address : Nat) (hm : s.fullMatches = true)
    (ht : (sp = .pstore ∧ s.resolve false d = .physical address) ∨ (sp = .vstore ∧ s.resolve false d = .virtual address)) :
    s.writeFull d = finishWrite d 0 (s.checkedFull.writeSlot (.memWrite sp address) sp address 0 (s.bufRange 9 512)) := by
  rcases ht with ⟨rfl, hr⟩ | ⟨rfl, hr⟩
  · exact s.writeFull_physical d address hm hr
  · exact s.writeFull_virtual d address hm hr

/-- Without half-sector mode `SEC.WR` of data that passed its test is the full-sector path, where its target is none the model refuses. -/
theorem exec_secWr_full (s : State) (d : DriveId) (hd : s.params.hasDrive d = true) (hh : s.params.half d = false)
    (hr : ∀ r, s.resolve false d ≠ .stop r) :
    exec (.secWr d) s = .next ((s.writeFull d).2.returning (.status (s.writeFull d).1)) := by
  rw [exec_secWr_goes s d hd (by rw [hh]; exact s.writeStop_none false d _ hr), s.writeSector_full d hh]

/-- `SEC.WR` of a full sector at one slot of either store (R225, R227, R228): the payload in that slot, or one report. The CRC test leaves `c`. -/
theorem exec_secWr_slot (s : State) (d : DriveId) (sp : Space) (address : Nat) (c : Word16) (hd : s.params.hasDrive d = true)
    (hh : s.params.half d = false) (hm : s.fullMatches = true) (hc : s.checkedFull = { s with crc := c })
    (ht : (sp = .pstore ∧ s.resolve false d = .physical address) ∨ (sp = .vstore ∧ s.resolve false d = .virtual address)) :
    ∃ u : State, exec (.secWr d) s = .next u ∧
      u = { s with crc := c, pstore := u.pstore, vstore := u.vstore, reports := u.reports, calls := s.calls ++ [.memWrite sp address],
                   result := u.result, answers := s.answers.tail, draws := s.draws + 1 } ∧
      (∀ sq, sq ≠ sp → u.store sq = s.store sq) ∧
      (∀ a, a < 512 * address ∨ 512 * address + 512 ≤ a → u.storeByte sp a = s.storeByte sp a) ∧
      (s.answer.st = 0 → (∀ k, k < 512 → u.storeByte sp (512 * address + k) = s.bufByte (9 + k)) ∧
        u.result = .status .ok ∧ u.reports = s.reports) ∧
      (s.answer.st ≠ 0 → u.result = .status .storageWriteError ∧
        u.reports = s.reports ++ [s.record d 0 .storageWriteError s.answer.st]) := by
  have hgo : ∀ r, s.resolve false d ≠ .stop r := by rcases ht with ⟨-, hr⟩ | ⟨-, hr⟩ <;> rw [hr] <;> nofun
  have hw := s.writeFull_target d sp address hm ht
  rw [hc] at hw
  obtain ⟨hframe, hother, hout, hok, hfail⟩ :=
    finishWrite_spec ({ s with crc := c } : State) d (.memWrite sp address) sp address 0 0 (s.bufRange 9 512) (by simp)
  rw [exec_secWr_full s d hd hh hgo]
  rw [← hw] at hframe hother hout hok hfail
  generalize s.writeFull d = u at *
  refine ⟨_, rfl, congrArg (State.returning · _) hframe, fun sq hq => (hother sq hq).trans (by cases sq <;> rfl),
    fun a ha => (hout a ha).trans (by cases sp <;> rfl), fun h0 => ?_, fun h0 => ?_⟩
  · obtain ⟨hst, hrep, hin, -⟩ := hok h0
    exact ⟨fun k hk => (hin k (by simpa using hk)).trans (State.getElem_bufRange _ _ _ _ _), congrArg Returned.status hst, hrep⟩
  · obtain ⟨hst, hrep⟩ := hfail h0
    exact ⟨congrArg Returned.status hst, hrep⟩

/-! ## The mismatch (R226) -/

/-- A full sector that fails its test. -/
theorem State.writeSector_full_mismatch (s : State) (d : DriveId) (hh : s.params.half d = false) (hm : s.fullMatches = false) :
    s.writeSector d = (.crcMismatch, s.checkedFull.report .crcMismatch d 0 0) :=
  (s.writeSector_full d hh).trans (s.writeFull_mismatch d hm)

/-- A half that fails its test: the missing medium is not what `SEC.WR` returns. -/
theorem State.writeSector_half_mismatch (s : State) (d : DriveId) (hh : s.params.half d = true)
    (hm : s.halfMatches (lbaHalf (s.drv d)) = false) :
    s.writeSector d = (.crcMismatch, (s.checkedHalf (lbaHalf (s.drv d))).report .crcMismatch d 0 0) := by
  have hst : s.withMedia d .crcMismatch = .crcMismatch := if_neg fun h => absurd h.1 (by decide)
  rw [s.writeSector_half d hh, s.writeHalf_mismatch d _ 0 hm, hst]

/-! ## The obligations -/

/-- Settles O38, by the target that R221 names. -/
theorem sectorRead : Obligations.SectorRead := by
  intro s d hd x idx
  have goes {t : Target} (hr : s.resolve (s.params.half d) d = t) (ht : ∀ r, t ≠ .stop r) : s.readStop d = none :=
    s.readStop_none d fun r => by rw [hr]; exact ht r
  refine ⟨fun hr hi => ?_, fun hr hv hh => ?_, fun hr hv => ?_, fun hr hi => ?_, fun hr hv hh => ?_⟩
  · have hres : s.resolve (s.params.half d) d = .physical idx := s.resolve_ready _ d hr hi
    exact exec_secRd_slot s d .pstore idx hd (goes hres nofun) (s.readSector_physical d idx hres)
  · have hres : s.resolve (s.params.half d) d = .virtual x.lba.toNat := by rw [hh]; exact s.resolve_virtual d hr hv
    exact exec_secRd_slot s d .vstore _ hd (goes hres nofun) (s.readSector_virtual d _ hres)
  · have hres := s.resolve_noMedia (s.params.half d) d hr hv
    rw [exec_secRd_goes s d hd (goes hres nofun), s.readSector_noMedia d hres]
    rfl
  · exact exec_secRd_stops s d _ hd (s.readStop_some d _ (s.resolve_ready_past _ d hr hi))
  · exact exec_secRd_stops s d _ hd (s.readStop_some d _ (by rw [hh]; exact s.resolve_virtual_half d hr hv))

/-- Settles O39: READONLY is no premise, since address resolution does not read it (R229). -/
theorem sectorWrite : Obligations.SectorWrite := by
  intro s d hd hh hr x idx c hc1 hc2 hi
  have hm : s.fullMatches = true := s.fullMatches_iff.2 ⟨hc1, hc2⟩
  obtain ⟨u, hgo, hframe, hother, hslot⟩ :=
    exec_secWr_slot s d .pstore idx c hd hh hm rfl (.inl ⟨rfl, s.resolve_ready false d hr hi⟩)
  have hv : u.vstore = s.vstore := hother .vstore (by decide)
  rw [hv] at hframe
  exact ⟨u, hgo, hframe, hslot⟩

/-- Settles O40, by the target that R221 names. -/
theorem sectorWriteElsewhere : Obligations.SectorWriteElsewhere := by
  intro s d hd hh x c hc1 hc2
  have hm : s.fullMatches = true := s.fullMatches_iff.2 ⟨hc1, hc2⟩
  have hcrc : s.checkedFull = { s with crc := c } := rfl
  clear_value c
  refine ⟨fun hr hv h0 => ?_, fun hr hv h0 => ?_, fun hr hv => ?_, fun hr hi => ?_⟩
  · obtain ⟨u, hgo, hframe, hother, hout, hok, -⟩ :=
      exec_secWr_slot s d .vstore x.lba.toNat c hd hh hm hcrc (.inr ⟨rfl, s.resolve_virtual d hr hv⟩)
    obtain ⟨hin, hres, hrep⟩ := hok h0
    have hp : u.pstore = s.pstore := hother .pstore (by decide)
    rw [hp, hres, hrep] at hframe
    exact ⟨u, hgo, hin, hout, hframe⟩
  · obtain ⟨u, hgo, hframe, hother, hout, -, hfail⟩ :=
      exec_secWr_slot s d .vstore x.lba.toNat c hd hh hm hcrc (.inr ⟨rfl, s.resolve_virtual d hr hv⟩)
    obtain ⟨hres, hrep⟩ := hfail h0
    have hp : u.pstore = s.pstore := hother .pstore (by decide)
    rw [hp, hres, hrep] at hframe
    exact ⟨u, hgo, hout, hframe⟩
  · have hres := s.resolve_noMedia false d hr hv
    rw [exec_secWr_full s d hd hh (by rw [hres]; nofun), s.writeFull_noMedia d hm hres, hcrc]
    rfl
  · have hwm : s.writeMatches d = true := (s.writeMatches_full d hh).trans hm
    exact exec_secWr_stops s d _ hd (by rw [hh, hwm, s.writeStop_refused false d _ (s.resolve_ready_past false d hr hi)])

/-- Settles O42: in either mode the failed test ends the write at its report, and the target, never resolved, refuses nothing. -/
theorem mismatchDropsTheWrite : Obligations.MismatchDropsTheWrite := by
  intro s d hd x b len c hc
  have hcrc : crcBytes s.params.crcPoly s.params.crcInit (s.bufRange b len) = c := rfl
  clear_value c
  have hfails : s.writeMatches d = false ∧
      s.writeSector d = (.crcMismatch, ({ s with crc := c } : State).report .crcMismatch d 0 0) := by
    cases hh : s.params.half d with
    | true =>
      have hb : b = halfBase (lbaHalf x) := (if_pos hh).trans (halfBase_eq _ (lbaHalf_lt x)).symm
      have hl : len = 257 := if_pos hh
      rw [hb, hl] at hc hcrc
      subst hcrc
      have hm : s.halfMatches (lbaHalf x) = false := Bool.eq_false_iff.2 (mt (s.halfMatches_iff _).1 hc)
      exact ⟨(s.writeMatches_half d hh).trans hm, s.writeSector_half_mismatch d hh hm⟩
    | false =>
      have hb : b = 8 := if_neg (by rw [hh]; decide)
      have hl : len = 513 := if_neg (by rw [hh]; decide)
      rw [hb, hl] at hc hcrc
      subst hcrc
      have hm : s.fullMatches = false := Bool.eq_false_iff.2 (mt s.fullMatches_iff.1 hc)
      exact ⟨(s.writeMatches_full d hh).trans hm, s.writeSector_full_mismatch d hh hm⟩
  obtain ⟨hm, hw⟩ := hfails
  rw [exec_secWr_goes s d hd (by rw [hm]; exact s.writeStop_mismatch _ d), hw]
  rfl

end Sys2Proof.Machine
end

section
/-!
PROOFS. The host operations (spec/45_host.md, R240 to R248). Each stands behind the same two tests: its drive exists, and every drive is
Deselected. Past both, each has one equation; while a drive is Selected, all have the same refusal.
-/

namespace Sys2Proof.Machine

/-! ## The admission test (R248) -/

/-- The drive operand of a host operation. -/
def Instr.hostOperand : Instr → Option DriveId
  | .imgLoad d _ _ _ _ _ | .imgEject d | .imgRdy d | .imgRo d | .imgChg d | .imgClrchg d | .drvLoad d _ _ _ _ _ | .drvEject d => some d
  | _ => none

/-- A host operation tests its drive and then that every drive is Deselected, before anything else. -/
theorem exec_eq_onIdle (i : Instr) (d : DriveId) (s : State) (hi : Instr.hostOperand i = some d) :
    ∃ k, exec i s = onDrive d s (onIdle s k) := by
  cases i <;> cases hi <;> exact ⟨_, rfl⟩

theorem exec_host_selected (i : Instr) (d : DriveId) (s : State) (hi : Instr.hostOperand i = some d) (hd : s.params.hasDrive d = true)
    (h : s.drv0.step ≠ .idle ∨ s.drv1.step ≠ .idle) : exec i s = .refused .hostOpWhileSelected := by
  obtain ⟨k, hk⟩ := exec_eq_onIdle i d s hi
  rw [hk, onDrive_has d s _ hd, onIdle_selected s k h]

/-! ## CHANGED cleared (R245) -/

/-- The descriptor with CHANGED clear. -/
def Image.clrChanged (x : Image) : Image := { x with flags := x.flags.clrChanged }

/-- The state after `IMG.CLRCHG` (`exec_imgClrchg`). -/
def State.clrChanged (s : State) (d : DriveId) : State := (s.setImg d (s.drv d).img.clrChanged).returningOk

/-- A second clearing finds nothing to clear. -/
theorem State.clrChanged_clrChanged (s : State) (d : DriveId) : (s.clrChanged d).clrChanged d = s.clrChanged d := by cases d <;> rfl

theorem State.clrChanged_drv0_step (s : State) (d : DriveId) : (s.clrChanged d).drv0.step = s.drv0.step := by cases d <;> rfl

theorem State.clrChanged_drv1_step (s : State) (d : DriveId) : (s.clrChanged d).drv1.step = s.drv1.step := by cases d <;> rfl

/-! ## The host operations with every drive Deselected -/

section
variable {s : State} {d : DriveId} (hd : s.params.hasDrive d = true) (h0 : s.drv0.step = .idle) (h1 : s.drv1.step = .idle)
include hd h0 h1

theorem onHost_idle (k : Outcome State) : onDrive d s (onIdle s k) = k := (onDrive_has d s _ hd).trans (onIdle_idle s k h0 h1)

theorem exec_imgLoad (nt : Word16) (ns : Byte) (start : Word32) (ro ok : Bool) :
    exec (.imgLoad d nt ns start ro ok) s = .next (s.loadImage d nt ns start ro ok) := onHost_idle hd h0 h1 _

theorem exec_drvLoad (nt : Word16) (ns : Byte) (start : Word32) (ro ok : Bool) :
    exec (.drvLoad d nt ns start ro ok) s = .next (s.loadImage d nt ns start ro ok) := onHost_idle hd h0 h1 _

theorem exec_imgEject : exec (.imgEject d) s = .next (s.setImg d (s.drv d).img.ejected).returningOk := onHost_idle hd h0 h1 _

theorem exec_drvEject : exec (.drvEject d) s = .next (s.setDrv d (s.drv d).ejected).returningOk := onHost_idle hd h0 h1 _

theorem exec_imgRdy : exec (.imgRdy d) s = .next (s.returning (.bool (s.drv d).img.flags.ready)) := onHost_idle hd h0 h1 _

theorem exec_imgRo : exec (.imgRo d) s = .next (s.returning (.bool (s.drv d).img.flags.readonly)) := onHost_idle hd h0 h1 _

theorem exec_imgChg : exec (.imgChg d) s = .next (s.returning (.bool (s.drv d).img.flags.changed)) := onHost_idle hd h0 h1 _

theorem exec_imgClrchg : exec (.imgClrchg d) s = .next (s.clrChanged d) := onHost_idle hd h0 h1 _

/-- `IMG.CLRCHG` leaves every drive Deselected, so a second one is admitted, and changes nothing more. -/
theorem exec_imgClrchg_again : exec (.imgClrchg d) (s.clrChanged d) = .next (s.clrChanged d) := by
  have hidle0 : (s.clrChanged d).drv0.step = .idle := (s.clrChanged_drv0_step d).trans h0
  have hidle1 : (s.clrChanged d).drv1.step = .idle := (s.clrChanged_drv1_step d).trans h1
  rw [exec_imgClrchg (s := s.clrChanged d) hd hidle0 hidle1, State.clrChanged_clrChanged]

end

/-! ## The entry actions (R195) -/

/-- With CHANGED pending and a medium present the acknowledgement of R195 is `clrChanged`. -/
theorem ImageFlags.acknowledged_eq_clrChanged {f : ImageFlags} {v : Bool} (hc : f.changed = true) (hm : f.ready = true ∨ v = true) :
    f.acknowledged v = f.clrChanged := by
  rw [ImageFlags.acknowledged, if_pos]
  simp [hc, mediaPresent, hm]

/-- The entry actions write nothing of the descriptor but its acknowledged flags (R195). -/
theorem State.enterActions_img (s : State) (d : DriveId) :
    ((s.enterActions d).drv d).img = { (s.drv d).img with flags := (s.drv d).img.flags.acknowledged (s.vdisk d) } :=
  congrArg Drive.img (s.drv_setDrv d ((s.drv d).entered (s.vdisk d)))

/-! ## The obligations -/

/-- Settles O43: both loads have one meaning, with one equation for each end. -/
theorem loadSetsTheDescriptor : Obligations.LoadSetsTheDescriptor := fun _ _ nt ns start ro hd h0 h1 =>
  ⟨exec_imgLoad hd h0 h1 nt ns start ro true, exec_drvLoad hd h0 h1 nt ns start ro true,
    exec_imgLoad hd h0 h1 nt ns start ro false, exec_drvLoad hd h0 h1 nt ns start ro false⟩

/-- Settles O44: the two ejects write what their equations say. -/
theorem ejectClearsTheDescriptor : Obligations.EjectClearsTheDescriptor := fun _ _ hd h0 h1 =>
  ⟨exec_imgEject hd h0 h1, exec_drvEject hd h0 h1⟩

/-- Settles O45: a predicate's equation writes the result alone; the reset descriptor has READY clear. -/
theorem predicatesReturnTheirFlag : Obligations.PredicatesReturnTheirFlag := fun d =>
  have hreset : (State.reset.drv d).img.flags.ready = false := by cases d <;> rfl
  ⟨rfl, rfl, rfl, hreset, fun _ hd h0 h1 => ⟨exec_imgRdy hd h0 h1, exec_imgRo hd h0 h1, exec_imgChg hd h0 h1⟩⟩

/-- Settles O46: a second clearing is admitted and finds nothing to clear; the entry actions acknowledge CHANGED by the same clearing. -/
theorem clearChangedIsIdempotent : Obligations.ClearChangedIsIdempotent := by
  refine fun d => ⟨rfl, fun s hd => ⟨fun h0 h1 => ?_, fun ho hl hg hc hm => ?_⟩⟩
  · exact ⟨s.clrChanged d, exec_imgClrchg hd h0 h1, rfl, exec_imgClrchg_again hd h0 h1⟩
  · refine ⟨_, exec_seqEnter_legal hd ho hl hg, (s.enterActions_img d).trans ?_⟩
    rw [ImageFlags.acknowledged_eq_clrChanged hc hm]
    rfl

/-- Settles O47: each of the eight is a host operation on `d`, and stops at the admission test. -/
theorem hostOperationsNeedIdleDrives : Obligations.HostOperationsNeedIdleDrives := by
  intro s d nt ns start ro ok hd hsel i hi
  have hhost : Instr.hostOperand i = some d := by
    simp only [List.mem_cons, List.not_mem_nil, or_false] at hi
    rcases hi with rfl | rfl | rfl | rfl | rfl | rfl | rfl | rfl <;> rfl
  exact exec_host_selected i d s hhost hd hsel

end Sys2Proof.Machine
end

section
/-!
PROOFS. No error of a transfer stops the loop (spec/60_exceptions.md, R264): of the drives the two transfer operations of the sequencer write
one step, whatever status they end with.
-/

namespace Sys2Proof.Machine

/-- A drive that is not at IDLE is Selected (R27). -/
theorem Drive.run_selected {x : Drive} (h : x.step ≠ .idle) : x.run = .selected := if_neg h

@[simp] theorem State.setStep_step (s : State) (d : DriveId) : s.setStep d (s.drv d).step = s := s.setDrv_drv d

/-- Of the drives `SEQ.FETCH d` and `SEQ.XFER d` write the step of `d` alone: they keep it, when they wait or are not enabled, or move on to XFER
or NEXT (R204, R205). -/
theorem Change.transfer_drv {i : Instr} {s t : State} {d : DriveId} (c : Change i s t) (hi : i = .seqFetch d ∨ i = .seqXfer d) :
    ∃ x, (x = (s.drv d).step ∨ x = .xfer ∨ x = .next) ∧ ∀ e, t.drv e = (s.setStep d x).drv e := by
  cases c with
  | data u r hm => exact ⟨_, .inl rfl, by rw [s.setStep_step]; exact hm.drv⟩
  | waits => exact ⟨_, .inl rfl, by rw [s.setStep_step]; exact fun _ => rfl⟩
  | notEnabled => exact ⟨_, .inl rfl, by rw [s.setStep_step]; exact fun _ => rfl⟩
  | fetch d' u _ _ hm x hx =>
    obtain rfl : d' = d := by simpa using hi
    exact ⟨x, .inr hx, by rw [hm.frame]; exact fun _ => rfl⟩
  | transfer d' u _ _ hm =>
    obtain rfl : d' = d := by simpa using hi
    exact ⟨.next, .inr (.inr rfl), by rw [hm.frame]; exact fun _ => rfl⟩
  | host _ _ _ hp => rcases hi with rfl | rfl <;> cases hp
  | _ => rcases hi with hi | hi <;> cases hi

/-- Settles O52: the selector and the latches have other writers, and the drive's step stays or becomes XFER or NEXT, never IDLE. -/
theorem transferErrorsNeverStopTheLoop : Obligations.TransferErrorsNeverStopTheLoop := by
  intro i d e s t hi hrun h
  have c := exec_change i s t h
  have hsel : t.selector = s.selector := by rcases hi with rfl | rfl <;> simpa using c.selector
  have hout : t.out = s.out := by rcases hi with rfl | rfl <;> simpa using c.out nofun
  obtain ⟨x, hx, hdrv⟩ := c.transfer_drv hi
  have hne : x ≠ .idle := by
    rcases hx with rfl | rfl | rfl
    · exact hrun
    · decide
    · decide
  have hd : t.drv d = { s.drv d with step := x } := (hdrv d).trans (s.drv_setStep d x)
  rw [hd]
  exact ⟨hsel, hout, Drive.run_selected hne, rfl, rfl, rfl, rfl, fun he => (hdrv e).trans (s.drv_setDrv_other d e _ he)⟩

end Sys2Proof.Machine
end

section
/-!
PROOFS. Reset and the stuck busy-wait (spec/70_reset_and_hazards.md, R300 and R314): the block `SYS.RESET` leaves, and one equation of `step` for
each thing that can stand before a main loop whose readback waits for WRITE_GATE.
-/

namespace Sys2Proof.Machine

/-! ## `SYS.RESET` (R300, R46) -/

theorem exec_sysReset (s : State) : exec .sysReset s = .next s.restarted := rfl

/-- A drive takes the reset values whatever it held before. -/
theorem State.drv_restarted (s : State) (d : DriveId) : s.restarted.drv d = Drive.drawn s.params d s.draws (d.pick 0 2) := by
  cases d <;> rfl

/-! ## A step while a readback waits (R155, R314) -/

theorem needsMainLoop_op_iff (i : Instr) : needsMainLoop (.op i) = true ↔ i.context = some .mainLoop := beq_iff_eq

/-- What is no operation comes from the environment, which no busy-wait holds. -/
theorem needsMainLoop_of_ne_op {item : TraceItem} (h : ∀ i, item ≠ .op i) : needsMainLoop item = false := by
  cases item with
  | op i => exact absurd rfl (h i)
  | envSide | envWgate | envVdisk | envDir => rfl

theorem step_stuck_nil (s : State) (w : Instr) (hb : s.busyWait = some w) (hg : s.inp.writeGate = .asserted) (ht : s.trace = []) :
    step s = .next s := by
  rw [step_stuck s w hb hg]; simp only [runStuck, ht]

/-- A line that needs the main loop stays where it is. -/
theorem step_stuck_held (s : State) (w : Instr) (line : List Byte) (rest : List (List Byte)) (item : TraceItem) (hb : s.busyWait = some w)
    (hg : s.inp.writeGate = .asserted) (ht : s.trace = line :: rest) (hd : decodeLine line = .ok item) (hm : needsMainLoop item = true) :
    step s = .next s := by
  rw [step_stuck s w hb hg]; simp only [runStuck, ht, hd, hm, if_true]

/-- A released gate lets the waiting operation run again before any line of the trace. -/
theorem step_resumes (s : State) (w : Instr) (hb : s.busyWait = some w) (hg : s.inp.writeGate = .released) :
    step s = exec w { s with busyWait := none } := by
  simp [step, runStep, hb, hg]

/-! ## The obligations -/

/-- Settles O49: the state reset leaves is written out field by field, and each drive of it is a drawn one. -/
theorem systemReset : Obligations.SystemReset := by
  refine fun s => ⟨s.restarted, exec_sysReset s, fun d => ?_, rfl, rfl, rfl, rfl, rfl, rfl, rfl, rfl, rfl, rfl, rfl, rfl, rfl⟩
  rw [s.drv_restarted d]
  exact ⟨rfl, rfl, rfl, rfl, rfl, rfl, rfl, rfl⟩

/-- Settles O60: the line at the head is held if it needs the main loop and runs if it does not; `ENV.WGATE 0` is one that runs, and with the gate
it releases the waiting operation goes on. -/
theorem stuckBusyWait : Obligations.StuckBusyWait := by
  intro s w hb
  have runs (hg : s.inp.writeGate = .asserted) {line rest item} (ht : s.trace = line :: rest) (hd : decodeLine line = .ok item)
      (hm : needsMainLoop item = false) : step s = runItem item { s with trace := rest } :=
    step_of_line s line rest item (.inr ⟨hg, hm⟩) ht hd
  refine ⟨step_stuck_nil s w hb, fun hg line rest i ht hd hc => ?_, fun hg line rest i ht hd hc => ?_, fun hg line rest ht hd => ?_,
    fun hg line rest item ht hd hi => runs hg ht hd (needsMainLoop_of_ne_op hi), step_resumes s w hb⟩
  · exact step_stuck_held s w line rest (.op i) hb hg ht hd ((needsMainLoop_op_iff i).2 hc)
  · have hne : i.context ≠ some .mainLoop := by rcases hc with hc | hc <;> simp [hc]
    exact runs hg ht hd (Bool.eq_false_iff.2 (mt (needsMainLoop_op_iff i).1 hne))
  · exact ⟨_, runs hg ht hd rfl, rfl, step_resumes _ w hb rfl⟩

end Sys2Proof.Machine
end
